-- ==== Sys2Proof/Word.lean ====
section
/-! DEFINITION. The widths of the hardware's values (`00_scope.md` R5, R8). Every value is unsigned; nothing is ever
sign-extended (R8). -/

namespace Sys2Proof

/-- A general register, a memory cell, a timer, or the field NN (R5 REG_W, TIMER_W; R91). -/
abbrev Byte := BitVec 8

/-- The program counter, the index register, a stack entry, or an instruction word (R5 PC_W, I_W, INSTR_W). -/
abbrev Word := BitVec 16

/-- A nibble of an instruction word: the fields OP, X, Y and N (R91), and a key index (R226). -/
abbrev Nibble := BitVec 4

/-- The 12-bit address field NNN (R91). -/
abbrev Addr12 := BitVec 12

end Sys2Proof
end

