-- ==== Sys2Proof/Syntax.lean ====
section
/-! DEFINITION. The 34 instructions of `30_encoding.md` R96, one constructor per row of `spec/opcode_table.json`, in the
table's order. The operands are the decoded fields of R91 at their own widths, so every term is an encodable instruction.
An unknown word (R99) is no row of the table and has no constructor: `Machine.instrStep` performs it. -/

namespace Sys2Proof

/-- An instruction of the table of R96. -/
inductive Instr where
  /-- `00E0` CLS (R181). -/
  | cls
  /-- `00EE` RET (R131). -/
  | ret
  /-- `1nnn` JP addr (R132). -/
  | jp (nnn : Addr12)
  /-- `2nnn` CALL addr (R133). -/
  | call (nnn : Addr12)
  /-- `3xnn` SE Vx, byte (R135). -/
  | seNN (x : Nibble) (nn : Byte)
  /-- `4xnn` SNE Vx, byte (R136). -/
  | sneNN (x : Nibble) (nn : Byte)
  /-- `5xy0` SE Vx, Vy (R137). -/
  | seVY (x y : Nibble)
  /-- `6xnn` LD Vx, byte (R151). -/
  | ldNN (x : Nibble) (nn : Byte)
  /-- `7xnn` ADD Vx, byte (R152). -/
  | addNN (x : Nibble) (nn : Byte)
  /-- `8xy0` LD Vx, Vy (R153). -/
  | ldVY (x y : Nibble)
  /-- `8xy1` OR Vx, Vy (R154). -/
  | orVY (x y : Nibble)
  /-- `8xy2` AND Vx, Vy (R155). -/
  | andVY (x y : Nibble)
  /-- `8xy3` XOR Vx, Vy (R156). -/
  | xorVY (x y : Nibble)
  /-- `8xy4` ADD Vx, Vy (R157). -/
  | addVY (x y : Nibble)
  /-- `8xy5` SUB Vx, Vy (R158). -/
  | sub (x y : Nibble)
  /-- `8xy6` SHR Vx, Vy (R159). -/
  | shr (x y : Nibble)
  /-- `8xy7` SUBN Vx, Vy (R160). -/
  | subn (x y : Nibble)
  /-- `8xyE` SHL Vx, Vy (R161). -/
  | shl (x y : Nibble)
  /-- `9xy0` SNE Vx, Vy (R138). -/
  | sneVY (x y : Nibble)
  /-- `Annn` LD I, addr (R171). -/
  | ldI (nnn : Addr12)
  /-- `Bnnn` JP V0, addr (R134). -/
  | jpV0 (nnn : Addr12)
  /-- `Cxnn` RND Vx, byte (R162). -/
  | rnd (x : Nibble) (nn : Byte)
  /-- `Dxyn` DRW Vx, Vy, nibble (R182). -/
  | drw (x y n : Nibble)
  /-- `Ex9E` SKP Vx (R190). -/
  | skp (x : Nibble)
  /-- `ExA1` SKNP Vx (R191). -/
  | sknp (x : Nibble)
  /-- `Fx07` LD Vx, DT (R194). -/
  | ldVxDT (x : Nibble)
  /-- `Fx0A` LD Vx, K (R192). -/
  | ldVxK (x : Nibble)
  /-- `Fx15` LD DT, Vx (R195). -/
  | ldDTVx (x : Nibble)
  /-- `Fx18` LD ST, Vx (R196). -/
  | ldSTVx (x : Nibble)
  /-- `Fx1E` ADD I, Vx (R172). -/
  | addI (x : Nibble)
  /-- `Fx29` LD F, Vx (R173). -/
  | ldF (x : Nibble)
  /-- `Fx33` LD B, Vx (R174). -/
  | ldB (x : Nibble)
  /-- `Fx55` LD [I], Vx (R175). -/
  | ldMemVx (x : Nibble)
  /-- `Fx65` LD Vx, [I] (R176). -/
  | ldVxMem (x : Nibble)
deriving DecidableEq, Repr

end Sys2Proof
end

