-- ==== Sys2Proof/Decode.lean ====
section
/-! DEFINITION. The instruction decoder (`30_encoding.md` R90 to R99), total on any bytes, and after it the encoder, written
from the same table. -/

namespace Sys2Proof

/-- The fields of an instruction word (R91); all are computed for every word, and they overlap. -/
structure Fields where
  /-- Nibble 1, bits 15:12, the major opcode. -/
  op  : Nibble
  /-- Nibble 2, bits 11:8. -/
  x   : Nibble
  /-- Nibble 3, bits 7:4. -/
  y   : Nibble
  /-- Nibble 4, bits 3:0. -/
  n   : Nibble
  /-- Bits 7:0. -/
  nn  : Byte
  /-- Bits 11:0. -/
  nnn : Addr12
deriving DecidableEq, Repr

/-- `decode(word) -> Fields` of R91; nibble 1 is bits 15:12 (D1, log 12). -/
def fields (w : Word) : Fields where
  op  := w.extractLsb' 12 4
  x   := w.extractLsb' 8 4
  y   := w.extractLsb' 4 4
  n   := w.extractLsb' 0 4
  nn  := w.extractLsb' 0 8
  nnn := w.extractLsb' 0 12

/-- Why bytes are no instruction. -/
inductive DecodeError where
  /-- Fewer than two bytes: every instruction is two bytes long (R90). -/
  | truncated
  /-- A word no pattern of R96 matches (R99). -/
  | unknownWord (w : Word)
deriving DecidableEq, Repr

/-- Major opcode 0 is decoded by the whole word: `00E0`, `00EE` (R95). -/
def decode0 (f : Fields) : Option Instr :=
  match f.nnn with
  | 0x0E0#12 => some .cls
  | 0x0EE#12 => some .ret
  | _ => none

/-- Major opcode 8 is decoded by N: 0 to 7 and E (R95, R97). The assignment of the minor opcodes is D2 (log 13). -/
def decode8 (f : Fields) : Option Instr :=
  match f.n with
  | 0x0#4 => some (.ldVY f.x f.y)
  | 0x1#4 => some (.orVY f.x f.y)
  | 0x2#4 => some (.andVY f.x f.y)
  | 0x3#4 => some (.xorVY f.x f.y)
  | 0x4#4 => some (.addVY f.x f.y)
  | 0x5#4 => some (.sub f.x f.y)
  | 0x6#4 => some (.shr f.x f.y)
  | 0x7#4 => some (.subn f.x f.y)
  | 0xE#4 => some (.shl f.x f.y)
  | _ => none

/-- Major opcode E is decoded by NN: 9E, A1 (R95, R98). -/
def decodeE (f : Fields) : Option Instr :=
  match f.nn with
  | 0x9E#8 => some (.skp f.x)
  | 0xA1#8 => some (.sknp f.x)
  | _ => none

/-- Major opcode F is decoded by NN (R95, R98). The roles of 07, 15 and 18 are D2 (log 13). -/
def decodeF (f : Fields) : Option Instr :=
  match f.nn with
  | 0x07#8 => some (.ldVxDT f.x)
  | 0x0A#8 => some (.ldVxK f.x)
  | 0x15#8 => some (.ldDTVx f.x)
  | 0x18#8 => some (.ldSTVx f.x)
  | 0x1E#8 => some (.addI f.x)
  | 0x29#8 => some (.ldF f.x)
  | 0x33#8 => some (.ldB f.x)
  | 0x55#8 => some (.ldMemVx f.x)
  | 0x65#8 => some (.ldVxMem f.x)
  | _ => none

/-- The opcode map of R95: the instruction a word encodes, `none` for an unknown word (R99). A 4-bit opcode has no value
past 0xF, so the last arm is never taken. -/
def decodeWord (w : Word) : Option Instr :=
  let f := fields w
  match f.op with
  | 0x0#4 => decode0 f
  | 0x1#4 => some (.jp f.nnn)
  | 0x2#4 => some (.call f.nnn)
  | 0x3#4 => some (.seNN f.x f.nn)
  | 0x4#4 => some (.sneNN f.x f.nn)
  | 0x5#4 => if f.n = 0 then some (.seVY f.x f.y) else none
  | 0x6#4 => some (.ldNN f.x f.nn)
  | 0x7#4 => some (.addNN f.x f.nn)
  | 0x8#4 => decode8 f
  | 0x9#4 => if f.n = 0 then some (.sneVY f.x f.y) else none
  | 0xA#4 => some (.ldI f.nnn)
  | 0xB#4 => some (.jpV0 f.nnn)
  | 0xC#4 => some (.rnd f.x f.nn)
  | 0xD#4 => some (.drw f.x f.y f.n)
  | 0xE#4 => decodeE f
  | 0xF#4 => decodeF f
  | _ => none

/-- The 16-bit value of two bytes, the one at the lower address first (R10 MemRead, `20_memory.md` R63: big-endian). -/
def joinBytes (hi lo : Byte) : Word := BitVec.ofNat 16 (hi.toNat * 256 + lo.toNat)

/-- The bytes of a word as memory holds them, lowest address first (R63, R90). -/
def wordBytes (w : Word) : List Byte := [w.extractLsb' 8 8, w.extractLsb' 0 8]

/-- The decoder on bytes: the instruction and the bytes after it, or the reason there is none. -/
def decode : List Byte → Except DecodeError (Instr × List Byte)
  | hi :: lo :: rest =>
    match decodeWord (joinBytes hi lo) with
    | some i => .ok (i, rest)
    | none => .error (.unknownWord (joinBytes hi lo))
  | _ => .error .truncated

/-! The encoder. -/

/-- Format `A` of R92: OP, NNN. -/
def packA (op : Nibble) (nnn : Addr12) : Word := BitVec.ofNat 16 (op.toNat * 4096 + nnn.toNat)

/-- Formats `XI` and `XM` of R92: OP, X, and a low byte that is NN or the minor opcode. -/
def packXB (op x : Nibble) (b : Byte) : Word := BitVec.ofNat 16 (op.toNat * 4096 + x.toNat * 256 + b.toNat)

/-- Formats `XY` and `XYN` of R92: OP, X, Y, and a low nibble that is N or the minor opcode. -/
def packXYN (op x y n : Nibble) : Word :=
  BitVec.ofNat 16 (op.toNat * 4096 + x.toNat * 256 + y.toNat * 16 + n.toNat)

/-- The word of an instruction (R96). -/
def encode : Instr → Word
  | .cls => 0x00E0
  | .ret => 0x00EE
  | .jp nnn => packA 0x1 nnn
  | .call nnn => packA 0x2 nnn
  | .seNN x nn => packXB 0x3 x nn
  | .sneNN x nn => packXB 0x4 x nn
  | .seVY x y => packXYN 0x5 x y 0x0
  | .ldNN x nn => packXB 0x6 x nn
  | .addNN x nn => packXB 0x7 x nn
  | .ldVY x y => packXYN 0x8 x y 0x0
  | .orVY x y => packXYN 0x8 x y 0x1
  | .andVY x y => packXYN 0x8 x y 0x2
  | .xorVY x y => packXYN 0x8 x y 0x3
  | .addVY x y => packXYN 0x8 x y 0x4
  | .sub x y => packXYN 0x8 x y 0x5
  | .shr x y => packXYN 0x8 x y 0x6
  | .subn x y => packXYN 0x8 x y 0x7
  | .shl x y => packXYN 0x8 x y 0xE
  | .sneVY x y => packXYN 0x9 x y 0x0
  | .ldI nnn => packA 0xA nnn
  | .jpV0 nnn => packA 0xB nnn
  | .rnd x nn => packXB 0xC x nn
  | .drw x y n => packXYN 0xD x y n
  | .skp x => packXB 0xE x 0x9E
  | .sknp x => packXB 0xE x 0xA1
  | .ldVxDT x => packXB 0xF x 0x07
  | .ldVxK x => packXB 0xF x 0x0A
  | .ldDTVx x => packXB 0xF x 0x15
  | .ldSTVx x => packXB 0xF x 0x18
  | .addI x => packXB 0xF x 0x1E
  | .ldF x => packXB 0xF x 0x29
  | .ldB x => packXB 0xF x 0x33
  | .ldMemVx x => packXB 0xF x 0x55
  | .ldVxMem x => packXB 0xF x 0x65

/-- The bytes of an instruction as memory holds them (R90). -/
def encodeBytes (i : Instr) : List Byte := wordBytes (encode i)

/-! The table of R96 as patterns: "each of the 4 nibble positions is either a fixed hex digit or a wildcard" (R94). -/

/-- One row of the opcode table: `none` is a wildcard nibble. -/
structure OpcodeRow where
  /-- The row's id in the table of R96. -/
  mnemonic : String
  /-- Nibble 1. -/
  n1 : Option Nibble
  /-- Nibble 2. -/
  n2 : Option Nibble
  /-- Nibble 3. -/
  n3 : Option Nibble
  /-- Nibble 4. -/
  n4 : Option Nibble
deriving DecidableEq, Repr

/-- A nibble of a word against a position of a pattern. -/
def nibbleFits (p : Option Nibble) (v : Nibble) : Bool :=
  match p with
  | none => true
  | some d => v == d

/-- A word matches a pattern when every fixed nibble agrees (R94). -/
def rowMatches (r : OpcodeRow) (w : Word) : Bool :=
  nibbleFits r.n1 (fields w).op && nibbleFits r.n2 (fields w).x && nibbleFits r.n3 (fields w).y
    && nibbleFits r.n4 (fields w).n

/-- The 34 rows of R96, in the table's order. -/
def opcodeTable : List OpcodeRow :=
  [⟨"CLS", some 0x0, some 0x0, some 0xE, some 0x0⟩,
   ⟨"RET", some 0x0, some 0x0, some 0xE, some 0xE⟩,
   ⟨"JP", some 0x1, none, none, none⟩,
   ⟨"CALL", some 0x2, none, none, none⟩,
   ⟨"SE_NN", some 0x3, none, none, none⟩,
   ⟨"SNE_NN", some 0x4, none, none, none⟩,
   ⟨"SE_VY", some 0x5, none, none, some 0x0⟩,
   ⟨"LD_NN", some 0x6, none, none, none⟩,
   ⟨"ADD_NN", some 0x7, none, none, none⟩]
  ++
  [⟨"LD_VY", some 0x8, none, none, some 0x0⟩,
   ⟨"OR", some 0x8, none, none, some 0x1⟩,
   ⟨"AND", some 0x8, none, none, some 0x2⟩,
   ⟨"XOR", some 0x8, none, none, some 0x3⟩,
   ⟨"ADD_VY", some 0x8, none, none, some 0x4⟩,
   ⟨"SUB", some 0x8, none, none, some 0x5⟩,
   ⟨"SHR", some 0x8, none, none, some 0x6⟩,
   ⟨"SUBN", some 0x8, none, none, some 0x7⟩,
   ⟨"SHL", some 0x8, none, none, some 0xE⟩,
   ⟨"SNE_VY", some 0x9, none, none, some 0x0⟩]
  ++
  [⟨"LD_I", some 0xA, none, none, none⟩,
   ⟨"JP_V0", some 0xB, none, none, none⟩,
   ⟨"RND", some 0xC, none, none, none⟩,
   ⟨"DRW", some 0xD, none, none, none⟩,
   ⟨"SKP", some 0xE, none, some 0x9, some 0xE⟩,
   ⟨"SKNP", some 0xE, none, some 0xA, some 0x1⟩,
   ⟨"LD_VX_DT", some 0xF, none, some 0x0, some 0x7⟩,
   ⟨"LD_VX_K", some 0xF, none, some 0x0, some 0xA⟩,
   ⟨"LD_DT_VX", some 0xF, none, some 0x1, some 0x5⟩,
   ⟨"LD_ST_VX", some 0xF, none, some 0x1, some 0x8⟩,
   ⟨"ADD_I", some 0xF, none, some 0x1, some 0xE⟩,
   ⟨"LD_F", some 0xF, none, some 0x2, some 0x9⟩,
   ⟨"LD_B", some 0xF, none, some 0x3, some 0x3⟩,
   ⟨"LD_MEM_VX", some 0xF, none, some 0x5, some 0x5⟩,
   ⟨"LD_VX_MEM", some 0xF, none, some 0x6, some 0x5⟩]

/-- The table's id of an instruction (R96). -/
def mnemonic : Instr → String
  | .cls => "CLS"
  | .ret => "RET"
  | .jp _ => "JP"
  | .call _ => "CALL"
  | .seNN _ _ => "SE_NN"
  | .sneNN _ _ => "SNE_NN"
  | .seVY _ _ => "SE_VY"
  | .ldNN _ _ => "LD_NN"
  | .addNN _ _ => "ADD_NN"
  | .ldVY _ _ => "LD_VY"
  | .orVY _ _ => "OR"
  | .andVY _ _ => "AND"
  | .xorVY _ _ => "XOR"
  | .addVY _ _ => "ADD_VY"
  | .sub _ _ => "SUB"
  | .shr _ _ => "SHR"
  | .subn _ _ => "SUBN"
  | .shl _ _ => "SHL"
  | .sneVY _ _ => "SNE_VY"
  | .ldI _ => "LD_I"
  | .jpV0 _ => "JP_V0"
  | .rnd _ _ => "RND"
  | .drw _ _ _ => "DRW"
  | .skp _ => "SKP"
  | .sknp _ => "SKNP"
  | .ldVxDT _ => "LD_VX_DT"
  | .ldVxK _ => "LD_VX_K"
  | .ldDTVx _ => "LD_DT_VX"
  | .ldSTVx _ => "LD_ST_VX"
  | .addI _ => "ADD_I"
  | .ldF _ => "LD_F"
  | .ldB _ => "LD_B"
  | .ldMemVx _ => "LD_MEM_VX"
  | .ldVxMem _ => "LD_VX_MEM"

/-! The host's numbering of an instruction's bits. -/

/-- The bytes the hardware stores for the instruction whose bits are `w`, bit 0 the least significant of the first (and only)
16-bit word; the bits from `nbits` up are 0. -/
def tableBytes (nbits w : Nat) : List Byte := wordBytes (BitVec.ofNat 16 (w % 2 ^ nbits))

/-- The instruction the decoder reads from those bytes. -/
def decodeTableWord (nbits w : Nat) : Option Instr :=
  match decode (tableBytes nbits w) with
  | .ok (i, _) => some i
  | .error _ => none

end Sys2Proof
end

