-- ==== Sys2Proof/Config.lean ====
section
/-! DEFINITION. What an implementation fixes (`00_scope.md` R6) and the values the spec leaves free. The parameters of R6
are the fields of `Config`, which State carries (log 1); the values the spec gives no number for are constants without a
body, so that nothing in Lean can evaluate them. -/

namespace Sys2Proof

/-- Which register the shifts `8xy6` and `8xyE` read (R6 SHIFT_SRC, `42_load_alu.md` R159, R161). -/
inductive ShiftSrc where
  /-- Vx is shifted in place and the field Y is ignored (the spec's default, D3). -/
  | vx
  /-- Vy is shifted and the result goes to Vx. -/
  | vy
deriving DecidableEq, Repr

/-- The open parameters of `00_scope.md` R6 (RANDOM apart, which is a value per execution: `Config.randomByte`). -/
structure Config where
  /-- SHIFT_SRC (D3). -/
  shiftSrc   : ShiftSrc
  /-- STACK_DEPTH: `none` is unbounded (D13). -/
  stackDepth : Option Nat
  /-- FONT: the 80 bytes at 0x050 to 0x09F at power-on (`10_state.md` R31, D26). -/
  font       : Vector Byte 80
  /-- TIMER_HZ, the fixed frequency of `clk_dt` and `clk_st` (`60_exceptions.md` R214). -/
  timerHz    : Rat
  /-- CPU_HZ, the frequency of `clk_cpu` at power-on (D20). -/
  cpuHz      : Rat
  /-- FREQ_STEP, what FreqUp adds and FreqDown subtracts (`60_exceptions.md` R229). -/
  freqStep   : Rat
  /-- FREQ_FLOOR, below which no frequency is set (`60_exceptions.md` R219). -/
  freqFloor  : Rat
deriving DecidableEq, Repr

/-- RANDOM (R6, `42_load_alu.md` R162, D19): the value of the n-th draw since power-on. A free value: no body, so a
statement about it holds for every sequence of draws (log 6). -/
opaque Config.randomByte : Nat → Byte

/-- The free numbers n, d behind FREQ_FLOOR = (n + 1) / (d + 1), for which the spec gives no value (D20, log 5). -/
opaque Config.openFloor : Nat × Nat

/-- The free numbers n, d behind FREQ_STEP = (n + 1) / (d + 1), for which the spec gives no value (D20, log 5). -/
opaque Config.openStep : Nat × Nat

/-- The free numbers n, d behind CPU_HZ = FREQ_FLOOR + n / (d + 1), for which the spec gives no value (D20, log 5). -/
opaque Config.openCpuExcess : Nat × Nat

/-- Every positive rational is `posRat p` for some `p`: the domain "positive real" of R6 (D36: rationals in a model). -/
def posRat (p : Nat × Nat) : Rat := ((p.1 : Rat) + 1) / ((p.2 : Rat) + 1)

/-- Every rational from 0 up is `nonnegRat p` for some `p`. -/
def nonnegRat (p : Nat × Nat) : Rat := (p.1 : Rat) / ((p.2 : Rat) + 1)

end Sys2Proof
end

