-- ==== Sys2Proof/Machine/Params.lean ====
section
/-! DEFINITION. The values the spec takes for the parameters of `00_scope.md` R6, in a file whose definitions a repair may
mend: SHIFT_SRC = VX (D3), STACK_DEPTH unbounded (D13), FONT the table of `10_state.md` R31 (D26), TIMER_HZ = 60 (D20).
CPU_HZ, FREQ_STEP and FREQ_FLOOR have no value in the spec and are free (log 5). -/

namespace Sys2Proof.Machine

/-- DESIGN CHOICE of the spec (D3), log 1: the default of SHIFT_SRC. -/
def defaultShiftSrc : ShiftSrc := .vx

/-- DESIGN CHOICE of the spec (D13), log 3: the default of STACK_DEPTH, unbounded. -/
def defaultStackDepth : Option Nat := none

/-- PRESUMED by the spec from general knowledge (R31, K1, D26), log 4: glyph d at 0x050 + 5 d, top row first. -/
def defaultFont : Vector Byte 80 :=
  #v[0xF0, 0x90, 0x90, 0x90, 0xF0,
     0x20, 0x60, 0x20, 0x20, 0x70,
     0xF0, 0x10, 0xF0, 0x80, 0xF0,
     0xF0, 0x10, 0xF0, 0x10, 0xF0,
     0x90, 0x90, 0xF0, 0x10, 0x10,
     0xF0, 0x80, 0xF0, 0x10, 0xF0,
     0xF0, 0x80, 0xF0, 0x90, 0xF0,
     0xF0, 0x10, 0x20, 0x40, 0x40,
     0xF0, 0x90, 0xF0, 0x90, 0xF0,
     0xF0, 0x90, 0xF0, 0x10, 0xF0,
     0xF0, 0x90, 0xF0, 0x90, 0x90,
     0xE0, 0x90, 0xE0, 0x90, 0xE0,
     0xF0, 0x80, 0x80, 0x80, 0xF0,
     0xE0, 0x90, 0x90, 0x90, 0xE0,
     0xF0, 0x80, 0xF0, 0x80, 0xF0,
     0xF0, 0x80, 0xF0, 0x80, 0x80]

/-- TIMER_HZ (R6, R214: "conventionally 60 Hz", D20). -/
def defaultTimerHz : Rat := 60

/-- The configuration at power-on. -/
def defaultConfig : Config where
  shiftSrc   := defaultShiftSrc
  stackDepth := defaultStackDepth
  font       := defaultFont
  timerHz    := defaultTimerHz
  cpuHz      := posRat Config.openFloor + nonnegRat Config.openCpuExcess
  freqStep   := posRat Config.openStep
  freqFloor  := posRat Config.openFloor

end Sys2Proof.Machine
end

