-- ==== Sys2Proof/Machine/State.lean ====
section
/-! DEFINITION. The machine's state as plain data (`10_state.md` R20), the reasons it stops, the events that change it
(`00_scope.md` R7), its outputs, and the state at power-on (`10_state.md` R41). -/

namespace Sys2Proof.Machine

/-- The fault causes of `60_exceptions.md` R201. A raise ends the machine: the outcome of the step is the fault, and
there is no next state (R204; D15 "Termination has no successor state"). -/
inductive Fault where
  /-- Code 1: a byte access at an address above 4095, the first failing one (R62, R205). Raised by the fetch, DRW, LD_B,
  LD_MEM_VX and LD_VX_MEM. Safe: the machine stops, as the spec says. -/
  | memFault (address : Nat)
  /-- Code 2: a register index above 15 (R23, R202). Raised only by the host's register contract `State.regGet` and
  `State.regSet`; no instruction word raises it and no step answers it. Safe. -/
  | regIndexFault (index : Nat)
  /-- Code 3: a program image of more than 3584 bytes (R204, R224). Never raised: LoadProgram reports it to the host as
  the output `Output.loadFailed` and the machine does not enter FAULT, so no step answers it. Safe. -/
  | romTooLarge (length : Nat)
  /-- Code 4: SKP or SKNP with Vx above 15 (R190, R191, R193, D10). Safe: the machine stops, as the spec says. -/
  | keyIndexFault (index : Nat)
  /-- Code 5: CALL with a finite STACK_DEPTH and a full stack (R29, R133). Safe: the machine stops, as the spec says. -/
  | stackOverflow
deriving DecidableEq, Repr

/-- The reasons the model gives an instruction no meaning. -/
inductive Refusal where
  /-- An instruction that `exec` rejects by name because it has no meaning yet. Raised by `exec` alone. Safe. Every
  instruction of the table has its meaning, so nothing answers it. -/
  | notModelled (mnemonic : String)
deriving DecidableEq, Repr

/-- The three outcomes of a step or a meaning. -/
abbrev Result (σ : Type) := Host.Outcome σ Fault Refusal

/-- What the core emits (R10 `emit`). -/
inductive Output where
  /-- The diagnostic of an unknown word: the word and the address it was fetched from (R124, R230, D29). -/
  | diag (word address : Word)
  /-- The redraw pulse of an executed DRW (R36, R182, R227). -/
  | redraw
  /-- The report to the host that a load was refused (R204, R224). -/
  | loadFailed (cause : Fault)
  /-- The log entry of a clock that could not read the time (R200, R218, R230; log 10). -/
  | timeReadFailed
deriving DecidableEq, Repr

/-- A clock (`10_state.md` R35, `60_exceptions.md` R216): a frequency in Hz and the time of its last firing in seconds. -/
structure Clock where
  /-- The target frequency. -/
  freq : Rat
  /-- The last-fire timestamp. -/
  last : Rat
deriving DecidableEq, Repr

/-- The events that change state (`00_scope.md` R7), and the polls of the three clocks that give rise to the first three
(`60_exceptions.md` R217, R220). A poll carries the time the time source gave, `none` if it could not be read (R218). -/
inductive Event where
  /-- One instruction (R120). -/
  | instrStep
  /-- One tick of the delay timer (R213). -/
  | delayTick
  /-- One tick of the sound timer (R213). -/
  | soundTick
  /-- A key goes down (R226). -/
  | press (k : Nibble)
  /-- A key goes up (R226). -/
  | release (k : Nibble)
  /-- The host loads a program image (R224). -/
  | loadProgram (image : List Byte)
  /-- The host restarts the program (`70_reset_and_hazards.md` R243). -/
  | warmReset
  /-- The host raises the instruction clock's frequency by FREQ_STEP (R229). -/
  | freqUp
  /-- The host lowers the instruction clock's frequency by FREQ_STEP (R229). -/
  | freqDown
  /-- The host polls `clk_cpu`; a firing causes one InstrStep (R122, R217, R220). -/
  | pollCpu (now : Option Rat)
  /-- The host polls `clk_dt`; a firing causes one DelayTick (R213, R217, R220). -/
  | pollDelay (now : Option Rat)
  /-- The host polls `clk_st`; a firing causes one SoundTick (R213, R217, R220). -/
  | pollSound (now : Option Rat)
deriving DecidableEq, Repr

/-- Memory: (address, byte) pairs in rising order of address, none equal to the power-on content of its address. An
unlisted address reads as its power-on content (`initByte` in Machine/Ops.lean). -/
abbrev Memory := List Host.Cell

/-- The display buffer: 32 rows of 64 cells (`10_state.md` R33). -/
abbrev Grid := Vector (Vector Bool 64) 32

/-- The complete state of the core (`10_state.md` R20), and after it four fields of the model's own. -/
structure State where
  /-- V0 to VF (R21). -/
  x      : Vector Byte 16
  /-- The program counter (R24). -/
  pc     : Word
  /-- The index register (R27). -/
  I      : Word
  /-- The call stack, newest entry first, a store of its own (R28, D14, log 25). -/
  stack  : List Word
  /-- Memory (R30, R60). -/
  mem    : Memory
  /-- The key latch (R32). -/
  key    : Vector Bool 16
  /-- The display buffer, row by row (R33). -/
  disp   : Grid
  /-- The delay timer (R34). -/
  DT     : Byte
  /-- The sound timer (R34). -/
  ST     : Byte
  /-- The clock that gates InstrStep (R35, R220). -/
  clkCpu : Clock
  /-- The clock that gates DelayTick (R35, R220). -/
  clkDt  : Clock
  /-- The clock that gates SoundTick (R35, R220). -/
  clkSt  : Clock
  /-- The cause of the fatal error that has happened, if any (R37). -/
  fault  : Option Fault
  /-- MODEL'S OWN: the configuration of `00_scope.md` R6; nothing writes it (log 1). -/
  cfg    : Config
  /-- MODEL'S OWN: how many values of RANDOM have been drawn (log 6). -/
  draws  : Nat
  /-- MODEL'S OWN: the events the host has still to cause, the next one first (log 2). -/
  inputs : List Event
  /-- MODEL'S OWN: the outputs emitted so far, newest first (log 10). -/
  out    : List Output
deriving DecidableEq, Repr

/-- Power-on (`70_reset_and_hazards.md` R240, the power-on column of `10_state.md` R41). Memory lists nothing, so every
address holds its power-on content: FONT at 0x050 to 0x09F and 0 elsewhere. The clocks' `last` is the time of power-on,
which the model takes as the origin of time (DESIGN CHOICE, log 8). -/
def State.reset : State where
  x      := Vector.replicate 16 0
  pc     := 0x200
  I      := 0
  stack  := []
  mem    := []
  key    := Vector.replicate 16 false
  disp   := Vector.replicate 32 (Vector.replicate 64 false)
  DT     := 0
  ST     := 0
  clkCpu := { freq := defaultConfig.cpuHz, last := 0 }
  clkDt  := { freq := defaultConfig.timerHz, last := 0 }
  clkSt  := { freq := defaultConfig.timerHz, last := 0 }
  fault  := none
  cfg    := defaultConfig
  draws  := 0
  inputs := []
  out    := []

end Sys2Proof.Machine
end

