-- ==== Sys2Proof/Machine/Ops.lean ====
section
/-! DEFINITION. The named operations over memory, registers, the program counter, the stack, the display and the outputs,
and the raise of a fault (`00_scope.md` R10). Every address is a natural number here, so none ever wraps (`20_memory.md`
R62, D16, log 17). -/

namespace Sys2Proof.Machine

/-! Memory. -/

/-- The power-on content of an address: FONT at 0x050 to 0x09F, else 0 (`10_state.md` R31, R41, `20_memory.md` R69). This
is what an unlisted address reads as. -/
def initByte (font : Vector Byte 80) (a : Nat) : Byte :=
  if 0x050 ≤ a then (font[a - 0x050]?).getD 0 else 0

/-- The listed byte of an address, if it is listed. -/
def memLookup (a : Nat) : Memory → Option Byte
  | [] => none
  | (b, v) :: m => if a = b then some v else memLookup a m

/-- A memory without the entries of an address. -/
def memErase (a : Nat) : Memory → Memory
  | [] => []
  | (b, v) :: m => if a = b then memErase a m else (b, v) :: memErase a m

/-- A memory with one more entry, put before the first greater address. -/
def memInsert (a : Nat) (v : Byte) : Memory → Memory
  | [] => [(a, v)]
  | (b, u) :: m => if a < b then (a, v) :: (b, u) :: m else (b, u) :: memInsert a v m

/-- A memory with one byte changed; a byte equal to its power-on content is not listed. -/
def memPut (font : Vector Byte 80) (a : Nat) (v : Byte) (m : Memory) : Memory :=
  if v = initByte font a then memErase a m else memInsert a v (memErase a m)

/-- The canonical form from a lower bound on: addresses strictly rising, all of them addresses of the hardware (R60), and no
entry equal to the power-on content. -/
def memSorted (font : Vector Byte 80) (lo : Nat) : Memory → Bool
  | [] => true
  | (a, v) :: m => decide (lo ≤ a) && decide (a ≤ 4095) && !(v == initByte font a) && memSorted font (a + 1) m

/-- The canonical form of memory. -/
def Memory.wf (font : Vector Byte 80) (m : Memory) : Bool := memSorted font 0 m

/-- The byte an address holds. -/
def State.peek (s : State) (a : Nat) : Byte := (memLookup a s.mem).getD (initByte s.cfg.font a)

/-- A state with the byte of an address changed. -/
def State.poke (s : State) (a : Nat) (v : Byte) : State := { s with mem := memPut s.cfg.font a v s.mem }

/-- `MemRead(addr, 1)`, `read8` (R10, `20_memory.md` R61, R62). -/
def State.readByte (s : State) (a : Nat) : Except Fault Byte :=
  if a ≤ 4095 then .ok (s.peek a) else .error (.memFault a)

/-- `MemWrite(addr, 1, v)`, `write8` (R10, R61, R62). -/
def State.writeByte (s : State) (a : Nat) (v : Byte) : Except Fault State :=
  if a ≤ 4095 then .ok (s.poke a v) else .error (.memFault a)

/-- `n` byte reads at ascending addresses; the fault is the first failing one's (R66, R205). -/
def State.readBytes (s : State) (a : Nat) : Nat → Except Fault (List Byte)
  | 0 => .ok []
  | n + 1 =>
    match s.readByte a with
    | .error c => .error c
    | .ok b =>
      match s.readBytes (a + 1) n with
      | .error c => .error c
      | .ok bs => .ok (b :: bs)

/-- Byte writes at ascending addresses; the fault is the first failing one's (R66, R205). What was written before a
failing write is unspecified (R68), and a fault leaves no state here. -/
def State.writeBytes (s : State) (a : Nat) : List Byte → Except Fault State
  | [] => .ok s
  | b :: bs =>
    match s.writeByte a b with
    | .error c => .error c
    | .ok t => t.writeBytes (a + 1) bs

/-- The bytes of a list put at ascending addresses, with no bounds check. -/
def State.pokeBytes (s : State) (a : Nat) : List Byte → State
  | [] => s
  | b :: bs => (s.poke a b).pokeBytes (a + 1) bs

/-- `MemRead(addr, 2)`, `read16`: big-endian (R10, R63). -/
def State.readWord (s : State) (a : Nat) : Except Fault Word :=
  match s.readByte a with
  | .error c => .error c
  | .ok hi =>
    match s.readByte (a + 1) with
    | .error c => .error c
    | .ok lo => .ok (joinBytes hi lo)

/-! General registers. -/

/-- `x[r]` (R10, R21). -/
def State.getReg (s : State) (r : Nibble) : Byte := s.x[r.toNat]'r.isLt

/-- `x[r] <- v` (R10, R21); no register is hardwired. -/
def State.setReg (s : State) (r : Nibble) (v : Byte) : State := { s with x := s.x.set r.toNat v r.isLt }

/-- The registers from index `i` up loaded with the bytes of a list. -/
def State.setRegsFrom (s : State) (i : Nat) : List Byte → State
  | [] => s
  | b :: bs => (s.setReg (BitVec.ofNat 4 i) b).setRegsFrom (i + 1) bs

/-- The registers V0 to V(n-1), in order. -/
def State.firstRegs (s : State) (n : Nat) : List Byte := (List.range n).map fun i => s.getReg (BitVec.ofNat 4 i)

/-- The register file's contract `get(reg)` as a host calls it, with any index (R21, R23, R202, log 26). -/
def State.regGet (s : State) (r : Nat) : Except Fault Byte :=
  if r ≤ 15 then .ok (s.getReg (BitVec.ofNat 4 r)) else .error (.regIndexFault r)

/-- The register file's contract `set(reg, value)` as a host calls it, with any index (R21, R23, R202). -/
def State.regSet (s : State) (r : Nat) (v : Byte) : Except Fault State :=
  if r ≤ 15 then .ok (s.setReg (BitVec.ofNat 4 r) v) else .error (.regIndexFault r)

/-! Program counter, index register, timers, stack. -/

/-- `pc <- target` (R10). -/
def State.setPc (s : State) (v : Word) : State := { s with pc := v }

/-- `advance()`: `pc <- (pc + 2) mod 65536` (R25). -/
def State.advance (s : State) : State := s.setPc (s.pc + 2)

/-- `rewind()`: `pc <- (pc - 2) mod 65536` (R25). -/
def State.rewind (s : State) : State := s.setPc (s.pc - 2)

/-- A skip is a conditional `advance()` (`41_control_flow.md` R130). -/
def State.skipIf (s : State) (b : Bool) : State := if b then s.advance else s

/-- `I <- v` (R10). -/
def State.setI (s : State) (v : Word) : State := { s with I := v }

/-- `DT <- v` (R10). -/
def State.setDT (s : State) (v : Byte) : State := { s with DT := v }

/-- `ST <- v` (R10). -/
def State.setST (s : State) (v : Byte) : State := { s with ST := v }

/-- The call stack replaced. -/
def State.setStack (s : State) (l : List Word) : State := { s with stack := l }

/-- `push(v)` (R29): a push on a full finite stack raises StackOverflow. -/
def State.push (s : State) (v : Word) : Except Fault State :=
  if s.cfg.stackDepth = some s.stack.length then .error .stackOverflow else .ok (s.setStack (v :: s.stack))

/-- `pop()` (R29): the newest entry and the state without it, or `none` if the stack is empty. -/
def State.pop (s : State) : Option (Word × State) :=
  match s.stack with
  | [] => none
  | v :: rest => some (v, s.setStack rest)

/-! Key latch, display, clocks. -/

/-- `key[k]` (R10, R32). -/
def State.keyDown (s : State) (k : Nibble) : Bool := s.key[k.toNat]'k.isLt

/-- `key[k]` set (R226). -/
def State.setKey (s : State) (k : Nibble) (b : Bool) : State := { s with key := s.key.set k.toNat b k.isLt }

/-- `anyPressed`: the least index of a key that is down (R32, `45_keypad_timers.md` R192). -/
def State.lowestKey (s : State) : Option Nibble :=
  ((List.range 16).map fun k => BitVec.ofNat 4 k).find? fun k => s.keyDown k

/-- `disp[r][c]` (R10, R33). -/
def State.pixel (s : State) (r : Fin 32) (c : Fin 64) : Bool := s.disp[r][c]

/-- The display buffer replaced. -/
def State.setDisp (s : State) (d : Grid) : State := { s with disp := d }

/-- The instruction clock replaced. -/
def State.setClkCpu (s : State) (c : Clock) : State := { s with clkCpu := c }

/-- The delay timer's clock replaced. -/
def State.setClkDt (s : State) (c : Clock) : State := { s with clkDt := c }

/-- The sound timer's clock replaced. -/
def State.setClkSt (s : State) (c : Clock) : State := { s with clkSt := c }

/-- The host's remaining events replaced. -/
def State.setInputs (s : State) (l : List Event) : State := { s with inputs := l }

/-! Outputs. -/

/-- `emit <Output>` (R10). -/
def State.emit (s : State) (o : Output) : State := { s with out := o :: s.out }

/-- The output `sound_on = (ST != 0)` (R34, `60_exceptions.md` R228, D30). -/
def State.soundOn (s : State) : Bool := !(s.ST == 0)

/-! RANDOM. -/

/-- `random_byte()` (R10): the value of the next draw, a free value. -/
def State.randomByte (s : State) : Byte := Config.randomByte s.draws

/-- The draw counted, so that the next execution draws anew (`42_load_alu.md` R162). -/
def State.countDraw (s : State) : State := { s with draws := s.draws + 1 }

/-! Taking a fault. -/

/-- `raise <Fault>` (R10, `60_exceptions.md` R204): the ONE operation by which an event ends in a fault. There is no handler,
vector, saved register, mode or return (R206, R208), so this is all of taking an exception. -/
def raise {σ : Type} (c : Fault) : Result σ := .fault c

/-- The outcome of a computation that may raise. -/
def outcomeOf {σ : Type} : Except Fault σ → Result σ
  | .ok s => .next s
  | .error c => raise c

/-- The fault field written. -/
def State.setFault (s : State) (c : Fault) : State := { s with fault := some c }

/-- The state the host is left with after an outcome: a fault is latched in `fault` and nothing else has an observable effect
(`10_state.md` R37, `40_cycle_and_dispatch.md` R125). -/
def State.settle (s : State) : Result State → State
  | .next t => t
  | .fault c => s.setFault c
  | .refused _ => s

/-- The numeric code of a cause (R201). -/
def faultCode : Fault → Nat
  | .memFault _ => 1
  | .regIndexFault _ => 2
  | .romTooLarge _ => 3
  | .keyIndexFault _ => 4
  | .stackOverflow => 5

end Sys2Proof.Machine
end

