-- ==== Sys2Proof/Machine/Operands.lean ====
section
/-! DEFINITION. Operand forms: immediates and addresses widened (`30_encoding.md` R93), the source of a shift
(`42_load_alu.md` R159, R161), and the effective addresses of the block instructions (`43_index_memory.md` R170). -/

namespace Sys2Proof.Machine

/-- `zext_16` of a 12-bit address (R93). -/
def zextAddr (nnn : Addr12) : Word := nnn.setWidth 16

/-- `zext_16` of a byte (R10). -/
def zextByte (b : Byte) : Word := b.setWidth 16

/-- The register a shift reads: Vx, or Vy by SHIFT_SRC (R159, R161, D3). -/
def State.shiftSource (s : State) (x y : Nibble) : Byte :=
  match s.cfg.shiftSrc with
  | .vx => s.getReg x
  | .vy => s.getReg y

/-- The base of every data address: `I` as a natural number, so that `I + k` never wraps (R170, D16). -/
def State.base (s : State) : Nat := s.I.toNat

/-- How many registers `Fx55` and `Fx65` copy: V0 to Vx, both ends included (R175, R176). -/
def blockLength (x : Nibble) : Nat := x.toNat + 1

/-- The three decimal digits of a byte: hundreds, tens, ones (R174). -/
def bcdDigits (v : Byte) : List Byte :=
  [BitVec.ofNat 8 (v.toNat / 100), BitVec.ofNat 8 (v.toNat / 10 % 10), BitVec.ofNat 8 (v.toNat % 10)]

/-- The address of the glyph of the low nibble of a byte: FONT_BASE + 5 * digit (R173, `20_memory.md` R70). -/
def glyphAddress (v : Byte) : Word := BitVec.ofNat 16 (0x050 + v.toNat % 16 * 5)

end Sys2Proof.Machine
end

