-- ==== Sys2Proof/Machine/ControlFlow.lean ====
section
/-! DEFINITION. Control transfer (`41_control_flow.md` R130 to R138): `00EE`, `1nnn`, `2nnn`, `Bnnn`, `3xnn`, `4xnn`,
`5xy0`, `9xy0`. Every meaning runs with `pc` already advanced (R126). Targets are not checked (R130). -/

namespace Sys2Proof.Machine

/-- `00EE` RET (R131): an empty stack makes it a no-operation. -/
def execRet (s : State) : Result State :=
  match s.pop with
  | none => .next s
  | some (v, t) => .next (t.setPc v)

/-- `1nnn` JP (R132). -/
def execJp (nnn : Addr12) (s : State) : Result State := .next (s.setPc (zextAddr nnn))

/-- `2nnn` CALL (R133): pushes the advanced `pc`. -/
def execCall (nnn : Addr12) (s : State) : Result State :=
  match s.push s.pc with
  | .error c => raise c
  | .ok t => .next (t.setPc (zextAddr nnn))

/-- `Bnnn` JP V0 (R134): the sum is not masked (D9, log 16). -/
def execJpV0 (nnn : Addr12) (s : State) : Result State := .next (s.setPc (zextAddr nnn + zextByte (s.getReg 0)))

/-- `3xnn` SE Vx, byte (R135). -/
def execSeNN (x : Nibble) (nn : Byte) (s : State) : Result State := .next (s.skipIf (s.getReg x == nn))

/-- `4xnn` SNE Vx, byte (R136). -/
def execSneNN (x : Nibble) (nn : Byte) (s : State) : Result State := .next (s.skipIf (s.getReg x != nn))

/-- `5xy0` SE Vx, Vy (R137). -/
def execSeVY (x y : Nibble) (s : State) : Result State := .next (s.skipIf (s.getReg x == s.getReg y))

/-- `9xy0` SNE Vx, Vy (R138). -/
def execSneVY (x y : Nibble) (s : State) : Result State := .next (s.skipIf (s.getReg x != s.getReg y))

end Sys2Proof.Machine
end

