-- ==== Sys2Proof/Machine/Flags.lean ====
section
/-! DEFINITION. The one flag, VF (`10_state.md` R22, R38): its values, and writing it after the result (D4, log 14). -/

namespace Sys2Proof.Machine

/-- A flag as the value of a register: 1 or 0 (R22: "each writes 0 or 1"). -/
def flagByte (b : Bool) : Byte := if b then 1 else 0

/-- The carry of `8xy4`: the true sum is above 255 (R157). -/
def carry (p q : Byte) : Bool := decide (p.toNat + q.toNat > 255)

/-- NOT borrow of `p - q`: true on equality (R158, R160, D5). -/
def notBorrow (p q : Byte) : Bool := decide (p.toNat ≥ q.toNat)

/-- The bit shifted out to the right: bit 0 (R159). -/
def bitOutRight (v : Byte) : Bool := v.getLsbD 0

/-- The bit shifted out to the left: bit 7 (R161). -/
def bitOutLeft (v : Byte) : Bool := v.getLsbD 7

/-- VF written with a flag. -/
def State.setVF (s : State) (b : Bool) : State := s.setReg 15 (flagByte b)

/-- A result and its flag written: `x[X]` first, then VF, so that the flag remains when X is 0xF (R38, R126, R150, D4). -/
def State.setResultAndFlag (s : State) (x : Nibble) (v : Byte) (b : Bool) : State := (s.setReg x v).setVF b

end Sys2Proof.Machine
end

