-- ==== Sys2Proof/Machine/Display.lean ====
section
/-! DEFINITION. Display (`44_display.md` R180 to R184): `00E0`, `Dxyn`. -/

namespace Sys2Proof.Machine

/-- `clear()`: every cell false (R180, R181). -/
def clearGrid : Grid := Vector.replicate 32 (Vector.replicate 64 false)

/-- One set sprite bit at row `yy` and column `xx`: outside the grid it is clipped; inside, the cell is inverted, and the
collision is noted if it was set (R182, R183, R184). -/
def plotPixel (yy xx : Nat) (g : Grid × Bool) : Grid × Bool :=
  if h : yy < 32 ∧ xx < 64 then
    (g.1.set yy (g.1[yy].set xx (!g.1[yy][xx])), g.2 || g.1[yy][xx])
  else g

/-- One sprite byte at row `yy`: bit 7 is the pixel at the origin column, bit 0 the one seven columns further (R180). -/
def drawRow (yy x0 : Nat) (b : Byte) (g : Grid × Bool) : Grid × Bool :=
  (List.range 8).foldl (fun g c => if b.getLsbD (7 - c) then plotPixel yy (x0 + c) g else g) g

/-- The sprite bytes at rows `yy`, `yy + 1`, … (R182). -/
def drawRows (yy x0 : Nat) : List Byte → Grid × Bool → Grid × Bool
  | [], g => g
  | b :: bs, g => drawRows (yy + 1) x0 bs (drawRow yy x0 b g)

/-- The origin column: Vx modulo 64 (R182, R183). -/
def originColumn (v : Byte) : Nat := v.toNat % 64

/-- The origin row: Vy modulo 32 (R182, R183). -/
def originRow (v : Byte) : Nat := v.toNat % 32

/-- `00E0` CLS (R181): no redraw pulse (D31, log 10). -/
def execCls (s : State) : Result State := .next (s.setDisp clearGrid)

/-- `Dxyn` DRW (R182): all N bytes are read before anything is drawn, those of clipped rows included (D17, log 18); VF is
written every time, and the redraw pulse is emitted once. -/
def execDrw (x y n : Nibble) (s : State) : Result State :=
  match s.readBytes s.base n.toNat with
  | .error c => raise c
  | .ok rows =>
    let g := drawRows (originRow (s.getReg y)) (originColumn (s.getReg x)) rows (s.disp, false)
    .next (((s.setDisp g.1).setVF g.2).emit .redraw)

end Sys2Proof.Machine
end

