-- ==== Sys2Proof/Machine/IndexMemory.lean ====
section
/-! DEFINITION. Index register and memory (`43_index_memory.md` R170 to R176): `Annn`, `Fx1E`, `Fx29`, `Fx33`, `Fx55`,
`Fx65`. `I` is never changed by a memory access (R170, D7, log 15). -/

namespace Sys2Proof.Machine

/-- `Annn` LD I, addr (R171). -/
def execLdI (nnn : Addr12) (s : State) : Result State := .next (s.setI (zextAddr nnn))

/-- `Fx1E` ADD I, Vx (R172): modulo 65536, VF not written (D8, log 15). -/
def execAddI (x : Nibble) (s : State) : Result State := .next (s.setI (s.I + zextByte (s.getReg x)))

/-- `Fx29` LD F, Vx (R173): computes an address, reads no memory. -/
def execLdF (x : Nibble) (s : State) : Result State := .next (s.setI (glyphAddress (s.getReg x)))

/-- `Fx33` LD B, Vx (R174). -/
def execLdB (x : Nibble) (s : State) : Result State := outcomeOf (s.writeBytes s.base (bcdDigits (s.getReg x)))

/-- `Fx55` LD [I], Vx (R175). -/
def execLdMemVx (x : Nibble) (s : State) : Result State :=
  outcomeOf (s.writeBytes s.base (s.firstRegs (blockLength x)))

/-- `Fx65` LD Vx, [I] (R176). -/
def execLdVxMem (x : Nibble) (s : State) : Result State :=
  match s.readBytes s.base (blockLength x) with
  | .error c => raise c
  | .ok bs => .next (s.setRegsFrom 0 bs)

end Sys2Proof.Machine
end

