-- ==== Sys2Proof/Machine/KeypadTimers.lean ====
section
/-! DEFINITION. Keypad and timer instructions (`45_keypad_timers.md` R190 to R197): `Ex9E`, `ExA1`, `Fx0A`, `Fx07`, `Fx15`,
`Fx18`. -/

namespace Sys2Proof.Machine

/-- The key a byte names: an index above 15 names no latch and is the fault KeyIndexFault (R193, D10, log 19). -/
def keyIndex (v : Byte) : Except Fault Nibble :=
  if v.toNat > 15 then .error (.keyIndexFault v.toNat) else .ok (BitVec.ofNat 4 v.toNat)

/-- `Ex9E` SKP (R190): the key is the value of Vx. -/
def execSkp (x : Nibble) (s : State) : Result State :=
  match keyIndex (s.getReg x) with
  | .error c => raise c
  | .ok k => .next (s.skipIf (s.keyDown k))

/-- `ExA1` SKNP (R191). -/
def execSknp (x : Nibble) (s : State) : Result State :=
  match keyIndex (s.getReg x) with
  | .error c => raise c
  | .ok k => .next (s.skipIf (!s.keyDown k))

/-- `Fx0A` LD Vx, K (R192): with no key down the program counter is put back, so the next cycle fetches this instruction
again; it does not wait for a release (D34, log 20). -/
def execLdVxK (x : Nibble) (s : State) : Result State :=
  match s.lowestKey with
  | none => .next s.rewind
  | some k => .next (s.setReg x (k.setWidth 8))

/-- `Fx07` LD Vx, DT (R194). -/
def execLdVxDT (x : Nibble) (s : State) : Result State := .next (s.setReg x s.DT)

/-- `Fx15` LD DT, Vx (R195). -/
def execLdDTVx (x : Nibble) (s : State) : Result State := .next (s.setDT (s.getReg x))

/-- `Fx18` LD ST, Vx (R196). -/
def execLdSTVx (x : Nibble) (s : State) : Result State := .next (s.setST (s.getReg x))

end Sys2Proof.Machine
end

