-- ==== Sys2Proof/Machine/LoadAlu.lean ====
section
/-! DEFINITION. Register load, arithmetic, logic, shift and random (`42_load_alu.md` R150 to R163). Operands are read from
the state before any register is written (R150). -/

namespace Sys2Proof.Machine

/-- `6xnn` LD Vx, byte (R151). -/
def execLdNN (x : Nibble) (nn : Byte) (s : State) : Result State := .next (s.setReg x nn)

/-- `7xnn` ADD Vx, byte (R152): modulo 256, no carry recorded. -/
def execAddNN (x : Nibble) (nn : Byte) (s : State) : Result State := .next (s.setReg x (s.getReg x + nn))

/-- `8xy0` LD Vx, Vy (R153). -/
def execLdVY (x y : Nibble) (s : State) : Result State := .next (s.setReg x (s.getReg y))

/-- `8xy1` OR (R154): VF not written (D6, log 14). -/
def execOrVY (x y : Nibble) (s : State) : Result State := .next (s.setReg x (s.getReg x ||| s.getReg y))

/-- `8xy2` AND (R155): VF not written (D6, log 14). -/
def execAndVY (x y : Nibble) (s : State) : Result State := .next (s.setReg x (s.getReg x &&& s.getReg y))

/-- `8xy3` XOR (R156): VF not written (D6, log 14). -/
def execXorVY (x y : Nibble) (s : State) : Result State := .next (s.setReg x (s.getReg x ^^^ s.getReg y))

/-- `8xy4` ADD Vx, Vy (R157). -/
def execAddVY (x y : Nibble) (s : State) : Result State :=
  .next (s.setResultAndFlag x (s.getReg x + s.getReg y) (carry (s.getReg x) (s.getReg y)))

/-- `8xy5` SUB (R158): Vx - Vy. -/
def execSub (x y : Nibble) (s : State) : Result State :=
  .next (s.setResultAndFlag x (s.getReg x - s.getReg y) (notBorrow (s.getReg x) (s.getReg y)))

/-- `8xy6` SHR (R159): logical, one place. -/
def execShr (x y : Nibble) (s : State) : Result State :=
  .next (s.setResultAndFlag x (s.shiftSource x y >>> 1) (bitOutRight (s.shiftSource x y)))

/-- `8xy7` SUBN (R160): Vy - Vx, to Vx. -/
def execSubn (x y : Nibble) (s : State) : Result State :=
  .next (s.setResultAndFlag x (s.getReg y - s.getReg x) (notBorrow (s.getReg y) (s.getReg x)))

/-- `8xyE` SHL (R161): one place. -/
def execShl (x y : Nibble) (s : State) : Result State :=
  .next (s.setResultAndFlag x (s.shiftSource x y <<< 1) (bitOutLeft (s.shiftSource x y)))

/-- `Cxnn` RND (R162): a fresh free value per execution (log 6). -/
def execRnd (x : Nibble) (nn : Byte) (s : State) : Result State :=
  .next (s.countDraw.setReg x (s.randomByte &&& nn))

end Sys2Proof.Machine
end

