-- ==== Sys2Proof/Machine/Dispatch.lean ====
section
/-! DEFINITION. The dispatcher (`40_cycle_and_dispatch.md` R123): one arm per instruction, in the order of the table of
`30_encoding.md` R96. The state given has `pc` already advanced past the instruction's word (R126). -/

namespace Sys2Proof.Machine

-- R123: the one handler of an instruction.
def exec (i : Instr) (s : State) : Host.Outcome State Fault Refusal :=
  match i with
  | .cls => Sys2Proof.Machine.execCls s
  | .ret => Sys2Proof.Machine.execRet s
  | .jp nnn => Sys2Proof.Machine.execJp nnn s
  | .call nnn => Sys2Proof.Machine.execCall nnn s
  | .seNN x nn => Sys2Proof.Machine.execSeNN x nn s
  | .sneNN x nn => Sys2Proof.Machine.execSneNN x nn s
  | .seVY x y => Sys2Proof.Machine.execSeVY x y s
  | .ldNN x nn => Sys2Proof.Machine.execLdNN x nn s
  | .addNN x nn => Sys2Proof.Machine.execAddNN x nn s
  | .ldVY x y => Sys2Proof.Machine.execLdVY x y s
  | .orVY x y => Sys2Proof.Machine.execOrVY x y s
  | .andVY x y => Sys2Proof.Machine.execAndVY x y s
  | .xorVY x y => Sys2Proof.Machine.execXorVY x y s
  | .addVY x y => Sys2Proof.Machine.execAddVY x y s
  | .sub x y => Sys2Proof.Machine.execSub x y s
  | .shr x y => Sys2Proof.Machine.execShr x y s
  | .subn x y => Sys2Proof.Machine.execSubn x y s
  | .shl x y => Sys2Proof.Machine.execShl x y s
  | .sneVY x y => Sys2Proof.Machine.execSneVY x y s
  | .ldI nnn => Sys2Proof.Machine.execLdI nnn s
  | .jpV0 nnn => Sys2Proof.Machine.execJpV0 nnn s
  | .rnd x nn => Sys2Proof.Machine.execRnd x nn s
  | .drw x y n => Sys2Proof.Machine.execDrw x y n s
  | .skp x => Sys2Proof.Machine.execSkp x s
  | .sknp x => Sys2Proof.Machine.execSknp x s
  | .ldVxDT x => Sys2Proof.Machine.execLdVxDT x s
  | .ldVxK x => Sys2Proof.Machine.execLdVxK x s
  | .ldDTVx x => Sys2Proof.Machine.execLdDTVx x s
  | .ldSTVx x => Sys2Proof.Machine.execLdSTVx x s
  | .addI x => Sys2Proof.Machine.execAddI x s
  | .ldF x => Sys2Proof.Machine.execLdF x s
  | .ldB x => Sys2Proof.Machine.execLdB x s
  | .ldMemVx x => Sys2Proof.Machine.execLdMemVx x s
  | .ldVxMem x => Sys2Proof.Machine.execLdVxMem x s

end Sys2Proof.Machine
end

