-- ==== Sys2Proof/Machine/Cycle.lean ====
section
/-! DEFINITION. The instruction cycle and the handler of unknown words (`40_cycle_and_dispatch.md` R120 to R125). -/

namespace Sys2Proof.Machine

/-- The handler of an unknown word (R124): a logged no-operation. `a` is the address the word was fetched from. -/
def execUnknown (w a : Word) (s : State) : Result State := .next (s.emit (.diag w a))

/-- What an InstrStep does with a fetched word: advance, then the one handler the word selects (R120, R123). -/
def runWord (w : Word) (s : State) : Result State :=
  match decodeWord w with
  | some i => exec i s.advance
  | none => execUnknown w s.pc s.advance

/-- InstrStep (R120): fetch at `pc`, advance, dispatch. A failing fetch is a fault and nothing else happens (R121). -/
def instrStep (s : State) : Result State :=
  match s.readWord s.pc.toNat with
  | .error c => raise c
  | .ok w => runWord w s

end Sys2Proof.Machine
end

