-- ==== Sys2Proof/WellFormed.lean ====
section
/-! DEFINITION. What counts as well formed: an instruction, a configuration (the domains of `00_scope.md` R6), and a program
image (`60_exceptions.md` R224). -/

namespace Sys2Proof

/-- Whether an instruction is one the encoding can express. Register indices, immediates, addresses and heights are typed at
the widths of R91, so every term is (R202: a model that types register indices as 4-bit values discharges RegIndexFault by
construction); the arms stand one by one so that a new constructor must say so of itself. -/
def Instr.wf : Instr → Bool
  | .cls => true
  | .ret => true
  | .jp _ => true
  | .call _ => true
  | .seNN _ _ => true
  | .sneNN _ _ => true
  | .seVY _ _ => true
  | .ldNN _ _ => true
  | .addNN _ _ => true
  | .ldVY _ _ => true
  | .orVY _ _ => true
  | .andVY _ _ => true
  | .xorVY _ _ => true
  | .addVY _ _ => true
  | .sub _ _ => true
  | .shr _ _ => true
  | .subn _ _ => true
  | .shl _ _ => true
  | .sneVY _ _ => true
  | .ldI _ => true
  | .jpV0 _ => true
  | .rnd _ _ => true
  | .drw _ _ _ => true
  | .skp _ => true
  | .sknp _ => true
  | .ldVxDT _ => true
  | .ldVxK _ => true
  | .ldDTVx _ => true
  | .ldSTVx _ => true
  | .addI _ => true
  | .ldF _ => true
  | .ldB _ => true
  | .ldMemVx _ => true
  | .ldVxMem _ => true

/-- The domains of R6: FREQ_FLOOR, FREQ_STEP and TIMER_HZ are positive and CPU_HZ is at least FREQ_FLOOR. SHIFT_SRC,
STACK_DEPTH and FONT have their domains as types. -/
abbrev Config.WF (c : Config) : Prop :=
  0 < c.freqFloor ∧ 0 < c.freqStep ∧ 0 < c.timerHz ∧ c.freqFloor ≤ c.cpuHz

/-- Whether a program image fits: at most ROM_MAX = 3584 bytes (R5, R224). -/
def imageFits (image : List Byte) : Bool := decide (image.length ≤ 3584)

end Sys2Proof
end

