-- ==== Sys2Proof/Machine/Events.lean ====
section
/-! DEFINITION. The asynchronous events and the clocks (`60_exceptions.md` R210 to R232, `70_reset_and_hazards.md` R243).
Every event is atomic and falls between two instructions (R211, D23, log 21). -/

namespace Sys2Proof.Machine

/-! Timers. -/

/-- A timer one unit lower, staying at 0 (`10_state.md` R34, R213). -/
def timerDown (t : Byte) : Byte := if t = 0 then 0 else t - 1

/-- DelayTick (R213). -/
def delayTick (s : State) : State := s.setDT (timerDown s.DT)

/-- SoundTick (R213). -/
def soundTick (s : State) : State := s.setST (timerDown s.ST)

/-! Clocks. -/

/-- `Clock.tick(now)` (R217): fires when the elapsed time reaches one period, and then `last` is `now` (D22, log 8). A failed
time read does not fire and changes nothing (R218). -/
def clockTick (c : Clock) : Option Rat → Bool × Clock
  | none => (false, c)
  | some now => if 1 / c.freq ≤ now - c.last then (true, { c with last := now }) else (false, c)

/-- `setFrequency(hz)`: `freq <- max(hz, FREQ_FLOOR)`, `last` kept (R219, C9, D32, log 22). -/
def setFrequency (floor : Rat) (c : Clock) (hz : Rat) : Clock :=
  { c with freq := if floor ≤ hz then hz else floor }

/-- The log entry of a failed time read; a time that was read leaves none (R200, R218, R230, log 10). -/
def State.noteTimeRead (s : State) : Option Rat → State
  | none => s.emit .timeReadFailed
  | some _ => s

/-- A poll of `clk_cpu`: a firing causes exactly one InstrStep, else nothing happens but the log entry of a failed
time read (R122, R218, R220). -/
def pollCpu (now : Option Rat) (s : State) : Result State :=
  match clockTick s.clkCpu now with
  | (true, c) => instrStep (s.setClkCpu c)
  | (false, _) => .next (s.noteTimeRead now)

/-- The delay timer's `tick()` (R213, D21): whether the timer's value changed, and the state after. The clock restarts its
period whether or not the timer is 0. -/
def pollDelay (now : Option Rat) (s : State) : Bool × State :=
  match clockTick s.clkDt now with
  | (true, c) => (!(s.DT == 0), delayTick (s.setClkDt c))
  | (false, _) => (false, s.noteTimeRead now)

/-- The sound timer's `tick()` (R213, D21). -/
def pollSound (now : Option Rat) (s : State) : Bool × State :=
  match clockTick s.clkSt now with
  | (true, c) => (!(s.ST == 0), soundTick (s.setClkSt c))
  | (false, _) => (false, s.noteTimeRead now)

/-! The host's controls. -/

/-- Press(k) (R226). -/
def pressKey (k : Nibble) (s : State) : State := s.setKey k true

/-- Release(k) (R226). -/
def releaseKey (k : Nibble) (s : State) : State := s.setKey k false

/-- LoadProgram(bytes) (R224, R225): the image copied to 0x200 and nothing else, or, if it does not fit, the report of
RomTooLarge and no change of state (D27, log 23). -/
def loadProgram (image : List Byte) (s : State) : State :=
  if imageFits image then s.pokeBytes 0x200 image else s.emit (.loadFailed (.romTooLarge image.length))

/-- WarmReset (`70_reset_and_hazards.md` R243, C1): the program counter and nothing else (D12, log 23). -/
def warmReset (s : State) : State := s.setPc 0x200

/-- FreqUp (R229). -/
def freqUp (s : State) : State :=
  s.setClkCpu (setFrequency s.cfg.freqFloor s.clkCpu (s.clkCpu.freq + s.cfg.freqStep))

/-- FreqDown (R229). -/
def freqDown (s : State) : State :=
  s.setClkCpu (setFrequency s.cfg.freqFloor s.clkCpu (s.clkCpu.freq - s.cfg.freqStep))

/-! The events. -/

/-- What an event does in a machine that is not in FAULT (`00_scope.md` R7). -/
def performEvent (e : Event) (s : State) : Result State :=
  match e with
  | .instrStep => instrStep s
  | .delayTick => .next (delayTick s)
  | .soundTick => .next (soundTick s)
  | .press k => .next (pressKey k s)
  | .release k => .next (releaseKey k s)
  | .loadProgram image => .next (loadProgram image s)
  | .warmReset => .next (warmReset s)
  | .freqUp => .next (freqUp s)
  | .freqDown => .next (freqDown s)
  | .pollCpu now => pollCpu now s
  | .pollDelay now => .next (pollDelay now s).2
  | .pollSound now => .next (pollSound now s).2

/-- An event: in FAULT none has any effect, and the machine stays stopped with the cause it stopped with (`10_state.md`
R37, R125, R204). -/
def runEvent (e : Event) (s : State) : Result State :=
  match s.fault with
  | some c => raise c
  | none => performEvent e s

/-- The next event of the schedule the host has set: the head of `inputs`, or an InstrStep when it lists none (log 2). -/
def nextEvent (s : State) : Result State :=
  match s.inputs with
  | [] => runEvent .instrStep s
  | e :: rest => runEvent e (s.setInputs rest)

/-! Placing one instruction for the next step. -/

/-- The address of the next fetch if a whole word can be fetched there, else 0x200 (R121, R242). -/
def fetchAddress (s : State) : Word := if s.pc.toNat ≤ 4094 then s.pc else 0x200

/-- A state whose next event is an InstrStep that fetches the given bytes: they stand at the fetch address, no event is
scheduled before it and the machine is not in FAULT (log 24). -/
def placeInstruction (s : State) (bytes : List Byte) : State :=
  ({ s with pc := fetchAddress s, fault := none, inputs := [] } : State).pokeBytes (fetchAddress s).toNat bytes

end Sys2Proof.Machine
end

