-- ==== Sys2Proof/Safety.lean ====
section
/-! DEFINITION. The terms the statements are written in: the machine's invariant, what an instruction may change, the sprite
as a picture, and the end of a run. -/

namespace Sys2Proof.Machine

/-! The invariant. -/

/-- What holds at power-on and after every event of a machine that has not stopped: memory is in its canonical form; `pc`
never passes 0x10FE (`10_state.md` R26); every return address is at most 4096, since it was a fetched-from address and 2
(R26, R28); a finite stack is never deeper than STACK_DEPTH (R20); the parameters are in their domains (`00_scope.md` R6);
the instruction clock never falls below FREQ_FLOOR (`60_exceptions.md` R219) and the timer clocks run at TIMER_HZ (R39). -/
structure State.Inv (s : State) : Prop where
  /-- Memory is in its canonical form. -/
  memWf      : Memory.wf s.cfg.font s.mem = true
  /-- `pc` is at most 0x10FE. -/
  pcBound    : s.pc.toNat ≤ 0x10FE
  /-- Return addresses are at most 4096. -/
  stackBound : ∀ v ∈ s.stack, v.toNat ≤ 4096
  /-- The stack is no deeper than a finite STACK_DEPTH. -/
  depthBound : ∀ d, s.cfg.stackDepth = some d → s.stack.length ≤ d
  /-- The parameters are in their domains. -/
  cfgWf      : s.cfg.WF
  /-- The instruction clock is at or above the floor. -/
  cpuFreq    : s.cfg.freqFloor ≤ s.clkCpu.freq
  /-- The delay timer's clock runs at TIMER_HZ. -/
  dtFreq     : s.clkDt.freq = s.cfg.timerHz
  /-- The sound timer's clock runs at TIMER_HZ. -/
  stFreq     : s.clkSt.freq = s.cfg.timerHz

/-! Frames. -/

/-- `t` is `s` but for general registers, and every register outside `rs` is unchanged. -/
def OnlyRegs (s t : State) (rs : List Nibble) : Prop :=
  t = { s with x := t.x } ∧ ∀ r, r ∉ rs → t.getReg r = s.getReg r

/-- `t` is `s` but for memory, and every byte outside the `n` bytes from `a` up is unchanged. -/
def OnlyBytes (s t : State) (a n : Nat) : Prop :=
  t = { s with mem := t.mem } ∧ ∀ b, ¬(a ≤ b ∧ b < a + n) → t.peek b = s.peek b

/-- The register an instruction's field X names as its destination (`10_state.md` R42), where it has one. -/
def destination : Instr → Option Nibble
  | .cls => none
  | .ret => none
  | .jp _ => none
  | .call _ => none
  | .seNN _ _ => none
  | .sneNN _ _ => none
  | .seVY _ _ => none
  | .ldNN x _ => some x
  | .addNN x _ => some x
  | .ldVY x _ => some x
  | .orVY x _ => some x
  | .andVY x _ => some x
  | .xorVY x _ => some x
  | .addVY x _ => some x
  | .sub x _ => some x
  | .shr x _ => some x
  | .subn x _ => some x
  | .shl x _ => some x
  | .sneVY _ _ => none
  | .ldI _ => none
  | .jpV0 _ => none
  | .rnd x _ => some x
  | .drw _ _ _ => none
  | .skp _ => none
  | .sknp _ => none
  | .ldVxDT x => some x
  | .ldVxK x => some x
  | .ldDTVx _ => none
  | .ldSTVx _ => none
  | .addI _ => none
  | .ldF _ => none
  | .ldB _ => none
  | .ldMemVx _ => none
  | .ldVxMem x => some x

/-- The outcome with its next state changed by `f`. -/
def mapNext (f : State → State) : Result State → Result State
  | .next t => .next (f t)
  | .fault c => .fault c
  | .refused r => .refused r

/-- `s` with every clock and every frequency parameter replaced. -/
def State.retimed (s : State) (a b c : Clock) (hz cpu up floor : Rat) : State :=
  { s with
    clkCpu := a
    clkDt := b
    clkSt := c
    cfg := { s.cfg with timerHz := hz, cpuHz := cpu, freqStep := up, freqFloor := floor } }

/-! The sprite of a draw, as a picture (`44_display.md` R182, R183). -/

/-- Whether the sprite DRW draws from state `s` has a set bit at row `r` and column `c` of the grid: the origin is reduced
modulo 32 and 64, rows and columns past the grid have no cell. -/
def spriteBit (s : State) (x y n : Nibble) (r : Fin 32) (c : Fin 64) : Bool :=
  decide ((s.getReg y).toNat % 32 ≤ r.val ∧ r.val < (s.getReg y).toNat % 32 + n.toNat)
    && decide ((s.getReg x).toNat % 64 ≤ c.val ∧ c.val < (s.getReg x).toNat % 64 + 8)
    && (s.peek (s.I.toNat + (r.val - (s.getReg y).toNat % 32))).getLsbD (7 - (c.val - (s.getReg x).toNat % 64))

/-! Runs. -/

/-- The word at `pc` (`20_memory.md` R63). -/
def State.nextWord (s : State) : Word := joinBytes (s.peek s.pc.toNat) (s.peek (s.pc.toNat + 1))

/-- The machine has not stopped, the host has scheduled no other event, and a whole word can be fetched at `pc`: the next
step is an InstrStep that fetches (`40_cycle_and_dispatch.md` R120, R121). -/
def State.Fetches (s : State) : Prop := s.fault = none ∧ s.inputs = [] ∧ s.pc.toNat ≤ 4094

/-- The end of a run by the spec's convention (`70_reset_and_hazards.md` R257): not in FAULT, and the word at `pc` is a
self-jump. It does not say that the hardware stops. -/
def State.atSelfJump (s : State) : Prop :=
  s.fault = none ∧ s.pc.toNat ≤ 0xFFE ∧ s.nextWord.toNat = 0x1000 + s.pc.toNat

end Sys2Proof.Machine
end

