-- ==== Sys2Proof/Certificates/Slice0/Obligations.lean ====
section
/-! DEFINITION. The statements for the provers. `log <n>` is `notes/assumptions/<n>.md`; `D<n>` is a decision of
`92_eei_decisions.md`, which is the spec's own choice and no statement of its source. -/

open Sys2Proof Sys2Proof.Machine

/-! ## Encoding -/

/-- The words of V-DEC1 to V-DEC10, and further words of the control, load and ALU, index and memory, display, and keypad and
timer families, decode to the instruction they stand for, or to none where they are unknown (`95_test_vectors.md`;
`30_encoding.md` R96, R99; the place of the fields is D1, log 12, the minor opcodes of 8xy are D2, log 13). -/
def Obligations.SpecWordsDecode : Prop :=
  (decodeWord 0x8AB4 = some (.addVY 0xA 0xB)
    ∧ decodeWord 0xD125 = some (.drw 1 2 5)
    ∧ decodeWord 0xF065 = some (.ldVxMem 0)
    ∧ decodeWord 0x00E0 = some .cls
    ∧ decodeWord 0x00EE = some .ret
    ∧ decodeWord 0xBFFF = some (.jpV0 0xFFF))
  ∧ (decodeWord 0x0000 = none ∧ decodeWord 0x00E1 = none ∧ decodeWord 0x00FF = none ∧ decodeWord 0x0123 = none
    ∧ decodeWord 0x5AB1 = none ∧ decodeWord 0x9AB8 = none
    ∧ decodeWord 0x8AB8 = none ∧ decodeWord 0x8ABD = none ∧ decodeWord 0x8ABF = none
    ∧ decodeWord 0xE19F = none ∧ decodeWord 0xE1A2 = none ∧ decodeWord 0xE100 = none
    ∧ decodeWord 0xF1FF = none ∧ decodeWord 0xF175 = none ∧ decodeWord 0xF185 = none ∧ decodeWord 0xF130 = none)
  ∧ (decodeWord 0x3542 = some (.seNN 5 0x42)
    ∧ decodeWord 0x730A = some (.addNN 3 0x0A)
    ∧ decodeWord 0xA300 = some (.ldI 0x300)
    ∧ decodeWord 0xDF11 = some (.drw 0xF 1 1)
    ∧ decodeWord 0xE49E = some (.skp 4)
    ∧ decodeWord 0xF30A = some (.ldVxK 3))

/-- Decoding the bytes an instruction encodes to gives the instruction back, with every operand at every value, and leaves
the bytes after it (R90, R91, R96). -/
def Obligations.DecodeEncodeRoundTrip : Prop :=
  ∀ (i : Instr) (rest : List Byte), i.wf = true → decode (encodeBytes i ++ rest) = .ok (i, rest)

/-- Every word that decodes is the word of the instruction it decodes to: no bit of a word is read by no field (R91, R96). -/
def Obligations.EncodeDecodeRoundTrip : Prop :=
  ∀ (w : Word) (i : Instr), decodeWord w = some i → encode i = w

/-- The words that are no instruction are exactly the sets of R99. -/
def Obligations.UnknownWordsAreExactly : Prop :=
  ∀ w : Word, decodeWord w = none ↔
    ((fields w).op = 0x0 ∧ (fields w).nnn ≠ 0x0E0 ∧ (fields w).nnn ≠ 0x0EE)
    ∨ ((fields w).op = 0x5 ∧ (fields w).n ≠ 0)
    ∨ ((fields w).op = 0x9 ∧ (fields w).n ≠ 0)
    ∨ ((fields w).op = 0x8 ∧ (fields w).n ∈ ([0x8, 0x9, 0xA, 0xB, 0xC, 0xD, 0xF] : List Nibble))
    ∨ ((fields w).op = 0xE ∧ (fields w).nn ∉ ([0x9E, 0xA1] : List Byte))
    ∨ ((fields w).op = 0xF
        ∧ (fields w).nn ∉ ([0x07, 0x0A, 0x15, 0x18, 0x1E, 0x29, 0x33, 0x55, 0x65] : List Byte))

/-- The decoder agrees with the table of patterns: a word that decodes to an instruction matches that instruction's row and
no other, and a word that decodes to nothing matches no row (R94, R96). -/
def Obligations.DecodeAgreesWithOpcodeTable : Prop :=
  ∀ w : Word,
    (decodeWord w = none ↔ ∀ r ∈ opcodeTable, rowMatches r w = false)
    ∧ ∀ i, decodeWord w = some i → ∀ r ∈ opcodeTable, rowMatches r w = true ↔ r.mnemonic = mnemonic i

/-! ## The cycle -/

/-- When the word at `pc` decodes to an instruction, a step is that instruction run from the state with `pc` advanced by 2
(R120). -/
def Obligations.StepRunsDecodedInstruction : Prop :=
  ∀ (s : State) (i : Instr), s.Fetches → decodeWord s.nextWord = some i →
    step s = exec i { s with pc := s.pc + 2 }

/-- An unknown word emits its diagnostic, moves `pc` to the next word and changes nothing else (R124; that the diagnostic
carries the word and its address is D29, log 10). -/
def Obligations.StepLogsUnknownWord : Prop :=
  ∀ s : State, s.Fetches → decodeWord s.nextWord = none →
    step s = .next { s with pc := s.pc + 2, out := .diag s.nextWord s.pc :: s.out }

/-- A fetch with `pc` above 4094 is the fault MemFault, with address `pc` if `pc` is above 4095 and 4096 otherwise (R121). -/
def Obligations.FetchFaultsPastMemory : Prop :=
  ∀ s : State, s.fault = none → s.inputs = [] → 4094 < s.pc.toNat →
    step s = .fault (.memFault (if 4095 < s.pc.toNat then s.pc.toNat else 4096))

/-- A step or an event that raises leaves the host a state whose fault field holds the cause; and in FAULT no event has any
effect: every event and every step answers the cause the machine stopped with, and the state the host is left with is the
state it had (R37, R204; that a fault is an outcome with no next state is D15, log 9). -/
def Obligations.FaultStateIsTerminal : Prop :=
  (∀ (s : State) (c : Fault) (e : Event),
    (step s = .fault c → (s.settle (step s)).fault = some c)
    ∧ (runEvent e s = .fault c → (s.settle (runEvent e s)).fault = some c))
  ∧ ∀ (s : State) (c : Fault) (e : Event), s.fault = some c →
    step s = .fault c ∧ s.settle (step s) = s ∧ runEvent e s = .fault c ∧ s.settle (runEvent e s) = s

/-- A step performs the event the host has scheduled next, and an InstrStep when it has scheduled none (the model's way to
admit every order of events, D24, log 2). -/
def Obligations.StepPerformsScheduledEvent : Prop :=
  ∀ s : State, s.fault = none →
    (∀ e rest, s.inputs = e :: rest → step s = performEvent e { s with inputs := rest })
    ∧ (s.inputs = [] → step s = performEvent .instrStep s)

/-- No step of any state ends in a refusal: every instruction has its meaning. -/
def Obligations.StepNeverRefuses : Prop :=
  ∀ (s : State) (r : Refusal), step s ≠ .refused r

/-- The only faults an instruction can raise, and which instructions raise them (R125, R201; KeyIndexFault is D10 and
StackOverflow D13). -/
def Obligations.InstructionFaultCauses : Prop :=
  ∀ (i : Instr) (s : State) (c : Fault), exec i s = .fault c →
    (∃ a, c = .memFault a ∧ 4096 ≤ a ∧ mnemonic i ∈ ["DRW", "LD_B", "LD_MEM_VX", "LD_VX_MEM"])
    ∨ (∃ k, c = .keyIndexFault k ∧ 15 < k ∧ k ≤ 255 ∧ mnemonic i ∈ ["SKP", "SKNP"])
    ∨ (c = .stackOverflow ∧ mnemonic i = "CALL" ∧ s.cfg.stackDepth = some s.stack.length)

/-- While no key is down, a step at an `Fx0A` leaves the whole state as it was (`45_keypad_timers.md` R192). -/
def Obligations.WaitForKeyRefetches : Prop :=
  ∀ (s : State) (x : Nibble), s.Fetches → decodeWord s.nextWord = some (.ldVxK x) →
    (∀ k, s.keyDown k = false) → step s = .next s

/-- At a self-jump an InstrStep leaves the whole state unchanged (`70_reset_and_hazards.md` R257; the convention is D33). -/
def Obligations.SelfJumpIsStable : Prop :=
  ∀ s : State, s.atSelfJump → s.inputs = [] → step s = .next s

/-! ## Invariant and reset -/

/-- Every event keeps the invariant: `pc` at most 0x10FE (R26), return addresses at most 4096 (R26, R28), the stack no deeper
than STACK_DEPTH (R20), the parameters in their domains (R6), the clocks' frequencies legal (R39, R219), and memory in its
canonical form, which is the model's representation of memory and no rule of the spec (DESIGN CHOICE, log 11). -/
def Obligations.StepKeepsInvariant : Prop :=
  ∀ s t : State, s.Inv → step s = .next t → t.Inv

/-- The state at power-on meets the invariant (its clause on the canonical form of memory is log 11). -/
def Obligations.ResetMeetsInvariant : Prop := State.reset.Inv

/-- The power-on column of `10_state.md` R41. Only `pc` and the place of the font come from the spec's source; the font bytes
are D26 (log 4), TIMER_HZ = 60 is D20 (log 5), each clock's `last` is the time of power-on by D22, which the model takes as 0
(log 8), and every other value is the spec's own choice D11 (log 7). -/
def Obligations.ResetValues : Prop :=
  State.reset.pc = 0x200
  ∧ (∀ r, State.reset.getReg r = 0)
  ∧ State.reset.I = 0
  ∧ State.reset.stack = []
  ∧ (∀ k, State.reset.keyDown k = false)
  ∧ (∀ r c, State.reset.pixel r c = false)
  ∧ State.reset.DT = 0 ∧ State.reset.ST = 0
  ∧ State.reset.fault = none
  ∧ (∀ a, a < 0x050 ∨ 0x0A0 ≤ a → State.reset.peek a = 0)
  ∧ (∀ k : Fin 80, State.reset.peek (0x050 + k.val) = State.reset.cfg.font[k])
  ∧ (List.range 10).map (fun k => State.reset.peek (0x050 + k))
      = [0xF0, 0x90, 0x90, 0x90, 0xF0, 0x20, 0x60, 0x20, 0x20, 0x70]
  ∧ State.reset.clkCpu.freq = State.reset.cfg.cpuHz
  ∧ State.reset.clkDt.freq = 60 ∧ State.reset.clkSt.freq = 60
  ∧ State.reset.clkCpu.last = 0 ∧ State.reset.clkDt.last = 0 ∧ State.reset.clkSt.last = 0

/-! ## Rules over all instructions -/

/-- No instruction changes the key latch, a clock, the fault field, the configuration or the host's schedule (R32, R35,
R207). -/
def Obligations.InstructionsLeaveHostState : Prop :=
  ∀ (i : Instr) (s t : State), exec i s = .next t →
    t.key = s.key ∧ t.clkCpu = s.clkCpu ∧ t.clkDt = s.clkDt ∧ t.clkSt = s.clkSt ∧ t.fault = s.fault
    ∧ t.cfg = s.cfg ∧ t.inputs = s.inputs

/-- Only `00E0` and `Dxyn` change the display (R33, R180). -/
def Obligations.OnlyDisplayInstructionsWriteDisp : Prop :=
  ∀ (i : Instr) (s t : State), exec i s = .next t → mnemonic i ∉ ["CLS", "DRW"] → t.disp = s.disp

/-- The six instructions that set VF leave 0 or 1 in it; any other changes it only when its destination field X is 0xF (R22;
VF's fate under X = 0xF is D4 and under logic D6, log 14); and `Fx65` changes no register above Vx (R176). -/
def Obligations.OnlyFlagInstructionsWriteVF : Prop :=
  ∀ (i : Instr) (s t : State), exec i s = .next t →
    (mnemonic i ∈ ["ADD_VY", "SUB", "SHR", "SUBN", "SHL", "DRW"] → t.getReg 15 = 0 ∨ t.getReg 15 = 1)
    ∧ (mnemonic i ∉ ["ADD_VY", "SUB", "SHR", "SUBN", "SHL", "DRW"] → destination i ≠ some 15 →
        t.getReg 15 = s.getReg 15)
    ∧ ∀ x r : Nibble, i = .ldVxMem x → x.toNat < r.toNat → t.getReg r = s.getReg r

/-- Only `Annn`, `Fx1E` and `Fx29` change `I`; the memory instructions do not (R27, R170; D7, log 15). -/
def Obligations.OnlyIndexInstructionsWriteI : Prop :=
  ∀ (i : Instr) (s t : State), exec i s = .next t → mnemonic i ∉ ["LD_I", "ADD_I", "LD_F"] → t.I = s.I

/-- Only `Fx33` and `Fx55` change memory, and no instruction changes a byte outside the sixteen from `I` up (R60, R66,
R73). -/
def Obligations.OnlyStoresWriteMemory : Prop :=
  ∀ (i : Instr) (s t : State), exec i s = .next t →
    (mnemonic i ∉ ["LD_B", "LD_MEM_VX"] → t.mem = s.mem)
    ∧ ∀ a, ¬(s.I.toNat ≤ a ∧ a ≤ s.I.toNat + 15) → t.peek a = s.peek a

/-- Only `2nnn` and `00EE` change the call stack, only `Fx15` the delay timer and only `Fx18` the sound timer (R28, R34). -/
def Obligations.StackAndTimersHaveOneWriter : Prop :=
  ∀ (i : Instr) (s t : State), exec i s = .next t →
    (mnemonic i ∉ ["CALL", "RET"] → t.stack = s.stack)
    ∧ (mnemonic i ≠ "LD_DT_VX" → t.DT = s.DT)
    ∧ (mnemonic i ≠ "LD_ST_VX" → t.ST = s.ST)

/-- The redraw pulse is emitted once by each executed `Dxyn` and no output by any other instruction (R36, R227; that `00E0`
emits none is D31, log 10). -/
def Obligations.OnlyDrawEmitsRedraw : Prop :=
  ∀ (i : Instr) (s t : State), exec i s = .next t →
    t.out = if mnemonic i = "DRW" then .redraw :: s.out else s.out

/-- No instruction reads a frequency or a timestamp: a run with other clocks and other frequency parameters differs in
them alone (R6, R35). -/
def Obligations.TimingIsInvisible : Prop :=
  ∀ (i : Instr) (s : State) (a b c : Clock) (hz cpu up floor : Rat),
    exec i (s.retimed a b c hz cpu up floor) = mapNext (fun t => t.retimed a b c hz cpu up floor) (exec i s)

/-- No instruction reads the sound timer: a run with another value in it differs in it alone, and after `Fx18` not at all
(R34, R196). -/
def Obligations.SoundTimerIsUnread : Prop :=
  ∀ (i : Instr) (s : State) (v : Byte),
    (mnemonic i ≠ "LD_ST_VX" → exec i { s with ST := v } = mapNext (fun t => { t with ST := v }) (exec i s))
    ∧ (mnemonic i = "LD_ST_VX" → exec i { s with ST := v } = exec i s)

/-! ## Control transfer -/

/-- `00EE` RET: the newest return address becomes `pc` and leaves the stack; an empty stack changes nothing (R131). -/
def Obligations.ReturnPopsTheStack : Prop :=
  ∀ s : State,
    (∀ v rest, s.stack = v :: rest → exec .ret s = .next { s with pc := v, stack := rest })
    ∧ (s.stack = [] → exec .ret s = .next s)

/-- `1nnn` JP: `pc` becomes NNN, nothing else changes, in every state (R132). -/
def Obligations.JumpSetsPc : Prop :=
  ∀ (s : State) (nnn : Addr12), ∃ t, exec (.jp nnn) s = .next t ∧ t = { s with pc := t.pc } ∧ t.pc.toNat = nnn.toNat

/-- `2nnn` CALL on a stack that is not full: the advanced `pc` is pushed and `pc` becomes NNN (R133; that a finite stack may
be full is D13, log 3). -/
def Obligations.CallPushesReturnAddress : Prop :=
  ∀ (s : State) (nnn : Addr12), s.cfg.stackDepth ≠ some s.stack.length →
    ∃ t, exec (.call nnn) s = .next t ∧ t = { s with pc := t.pc, stack := s.pc :: s.stack } ∧ t.pc.toNat = nnn.toNat

/-- `2nnn` CALL on a full finite stack is the fault StackOverflow (R29, R133; the spec's choice D13, log 3). -/
def Obligations.CallOverflowsFullStack : Prop :=
  ∀ (s : State) (nnn : Addr12), s.cfg.stackDepth = some s.stack.length → exec (.call nnn) s = .fault .stackOverflow

/-- `Bnnn` JP V0: `pc` becomes NNN plus V0 exactly, without a mask or a wrap (R134; no mask is D9, log 16). -/
def Obligations.JumpV0AddsWithoutMask : Prop :=
  ∀ (s : State) (nnn : Addr12),
    ∃ t, exec (.jpV0 nnn) s = .next t ∧ t = { s with pc := t.pc } ∧ t.pc.toNat = nnn.toNat + (s.getReg 0).toNat

/-- The four skips `3xnn`, `4xnn`, `5xy0`, `9xy0` add 2 to `pc` when their comparison holds and change nothing otherwise; a
low nibble other than 0 makes no skip of registers but an unknown word (R135 to R138). -/
def Obligations.SkipsAdvancePc : Prop :=
  ∀ (s : State) (x y : Nibble) (nn : Byte),
    (exec (.seNN x nn) s = .next (if s.getReg x = nn then { s with pc := s.pc + 2 } else s))
    ∧ (exec (.sneNN x nn) s = .next (if s.getReg x ≠ nn then { s with pc := s.pc + 2 } else s))
    ∧ (exec (.seVY x y) s = .next (if s.getReg x = s.getReg y then { s with pc := s.pc + 2 } else s))
    ∧ (exec (.sneVY x y) s = .next (if s.getReg x ≠ s.getReg y then { s with pc := s.pc + 2 } else s))
    ∧ ∀ n : Nibble, n ≠ 0 → decodeWord (packXYN 0x5 x y n) = none ∧ decodeWord (packXYN 0x9 x y n) = none

/-! ## Load, arithmetic, logic, shift, random -/

/-- `6xnn` and `8xy0` put NN or Vy into Vx and change nothing else (R151, R153). -/
def Obligations.LoadsSetOneRegister : Prop :=
  ∀ (s : State) (x y : Nibble) (nn : Byte),
    (∃ t, exec (.ldNN x nn) s = .next t ∧ OnlyRegs s t [x] ∧ t.getReg x = nn)
    ∧ (∃ t, exec (.ldVY x y) s = .next t ∧ OnlyRegs s t [x] ∧ t.getReg x = s.getReg y)

/-- `7xnn` puts Vx + NN modulo 256 into Vx and changes nothing else, VF included (R152). -/
def Obligations.AddImmediateWraps : Prop :=
  ∀ (s : State) (x : Nibble) (nn : Byte),
    ∃ t, exec (.addNN x nn) s = .next t ∧ OnlyRegs s t [x]
      ∧ (t.getReg x).toNat = ((s.getReg x).toNat + nn.toNat) % 256

/-- `8xy1`, `8xy2`, `8xy3` put the bitwise OR, AND, XOR of Vx and Vy into Vx, bit by bit, and change nothing else (R154 to
R156; that VF is not written is the spec's choice D6, log 14). -/
def Obligations.LogicIsBitwise : Prop :=
  ∀ (s : State) (x y : Nibble),
    (∃ t, exec (.orVY x y) s = .next t ∧ OnlyRegs s t [x]
      ∧ ∀ k < 8, (t.getReg x).getLsbD k = ((s.getReg x).getLsbD k || (s.getReg y).getLsbD k))
    ∧ (∃ t, exec (.andVY x y) s = .next t ∧ OnlyRegs s t [x]
      ∧ ∀ k < 8, (t.getReg x).getLsbD k = ((s.getReg x).getLsbD k && (s.getReg y).getLsbD k))
    ∧ (∃ t, exec (.xorVY x y) s = .next t ∧ OnlyRegs s t [x]
      ∧ ∀ k < 8, (t.getReg x).getLsbD k = ((s.getReg x).getLsbD k ^^ (s.getReg y).getLsbD k))

/-- `8xy4` puts Vx + Vy modulo 256 into Vx and the carry of the true sum into VF, which keeps the flag when X is 0xF (R157;
the order of the two writes is the spec's choice D4, log 14). -/
def Obligations.AddSetsCarry : Prop :=
  ∀ (s : State) (x y : Nibble),
    ∃ t, exec (.addVY x y) s = .next t ∧ OnlyRegs s t [x, 15]
      ∧ (x ≠ 15 → (t.getReg x).toNat = ((s.getReg x).toNat + (s.getReg y).toNat) % 256)
      ∧ t.getReg 15 = if (s.getReg x).toNat + (s.getReg y).toNat > 255 then 1 else 0

/-- `8xy5` and `8xy7` put Vx - Vy and Vy - Vx modulo 256 into Vx and NOT borrow into VF, 1 on equality (R158, R160; the
equality is the spec's choice D5, the order of writes D4, log 14). -/
def Obligations.SubtractsSetNotBorrow : Prop :=
  ∀ (s : State) (x y : Nibble),
    (∃ t, exec (.sub x y) s = .next t ∧ OnlyRegs s t [x, 15]
      ∧ (x ≠ 15 → (t.getReg x).toNat = ((s.getReg x).toNat + 256 - (s.getReg y).toNat) % 256)
      ∧ t.getReg 15 = if (s.getReg x).toNat ≥ (s.getReg y).toNat then 1 else 0)
    ∧ (∃ t, exec (.subn x y) s = .next t ∧ OnlyRegs s t [x, 15]
      ∧ (x ≠ 15 → (t.getReg x).toNat = ((s.getReg y).toNat + 256 - (s.getReg x).toNat) % 256)
      ∧ t.getReg 15 = if (s.getReg y).toNat ≥ (s.getReg x).toNat then 1 else 0)

/-- `8xy6` and `8xyE` shift their source, Vx or Vy by SHIFT_SRC, by one place into Vx, and put the bit shifted out into VF,
for both values of SHIFT_SRC (R159, R161; the parameter is D3, log 1, the order of writes D4, log 14). -/
def Obligations.ShiftsSetBitOut : Prop :=
  ∀ (s : State) (x y : Nibble) (v : Byte),
    (s.cfg.shiftSrc = .vx → v = s.getReg x) → (s.cfg.shiftSrc = .vy → v = s.getReg y) →
    (∃ t, exec (.shr x y) s = .next t ∧ OnlyRegs s t [x, 15]
      ∧ (x ≠ 15 → (t.getReg x).toNat = v.toNat / 2)
      ∧ (t.getReg 15).toNat = v.toNat % 2)
    ∧ (∃ t, exec (.shl x y) s = .next t ∧ OnlyRegs s t [x, 15]
      ∧ (x ≠ 15 → (t.getReg x).toNat = v.toNat * 2 % 256)
      ∧ (t.getReg 15).toNat = v.toNat / 128)

/-- `Cxnn` puts the next draw of RANDOM, masked by NN, into Vx, counts the draw and changes nothing else; the result has no
bit that NN lacks. It holds for every sequence of draws, which are free values (R162; D19, log 6). -/
def Obligations.RandomIsMaskedAndDrawnAnew : Prop :=
  ∀ (s : State) (x : Nibble) (nn : Byte),
    ∃ t, exec (.rnd x nn) s = .next t ∧ t = { s with x := t.x, draws := s.draws + 1 }
      ∧ (∀ r, r ≠ x → t.getReg r = s.getReg r)
      ∧ t.getReg x = Config.randomByte s.draws &&& nn
      ∧ ∀ k < 8, nn.getLsbD k = false → (t.getReg x).getLsbD k = false

/-! ## Index register and memory -/

/-- `Annn` puts NNN into `I`, and `Fx29` puts 0x050 + 5 * (Vx and 0xF) there; nothing else changes (R171, R173). -/
def Obligations.IndexLoads : Prop :=
  ∀ (s : State) (x : Nibble) (nnn : Addr12),
    (∃ t, exec (.ldI nnn) s = .next t ∧ t = { s with I := t.I } ∧ t.I.toNat = nnn.toNat)
    ∧ (∃ t, exec (.ldF x) s = .next t ∧ t = { s with I := t.I }
      ∧ t.I.toNat = 0x050 + (s.getReg x &&& 0x0F).toNat * 5)

/-- `Fx1E` adds Vx to `I` modulo 65536 and changes nothing else, VF included (R172; the width of the wrap and the unwritten
VF are the spec's choice D8, log 15). -/
def Obligations.IndexAddWraps : Prop :=
  ∀ (s : State) (x : Nibble),
    ∃ t, exec (.addI x) s = .next t ∧ t = { s with I := t.I }
      ∧ t.I.toNat = (s.I.toNat + (s.getReg x).toNat) % 65536

/-- `Fx33` with its three bytes in memory stores the hundreds, tens and ones of Vx at `I`, `I + 1`, `I + 2` and changes
nothing else (R174). -/
def Obligations.BcdStoresDigits : Prop :=
  ∀ (s : State) (x : Nibble), s.I.toNat ≤ 4093 →
    ∃ t, exec (.ldB x) s = .next t ∧ OnlyBytes s t s.I.toNat 3
      ∧ (t.peek s.I.toNat).toNat = (s.getReg x).toNat / 100
      ∧ (t.peek (s.I.toNat + 1)).toNat = (s.getReg x).toNat / 10 % 10
      ∧ (t.peek (s.I.toNat + 2)).toNat = (s.getReg x).toNat % 10

/-- `Fx55` with its bytes in memory stores V0 to Vx at `I` up to `I + X` and changes nothing else, `I` included (R175; `I`
unchanged is the spec's choice D7, log 15). -/
def Obligations.BlockStoreCopiesRegisters : Prop :=
  ∀ (s : State) (x : Nibble), s.I.toNat + x.toNat ≤ 4095 →
    ∃ t, exec (.ldMemVx x) s = .next t ∧ OnlyBytes s t s.I.toNat (x.toNat + 1)
      ∧ ∀ r : Nibble, r.toNat ≤ x.toNat → t.peek (s.I.toNat + r.toNat) = s.getReg r

/-- `Fx65` with its bytes in memory loads V0 to Vx from `I` up to `I + X` and changes nothing else, `I` included (R176; `I`
unchanged is the spec's choice D7, log 15). -/
def Obligations.BlockLoadCopiesMemory : Prop :=
  ∀ (s : State) (x : Nibble), s.I.toNat + x.toNat ≤ 4095 →
    ∃ t, exec (.ldVxMem x) s = .next t ∧ t = { s with x := t.x }
      ∧ (∀ r : Nibble, r.toNat ≤ x.toNat → t.getReg r = s.peek (s.I.toNat + r.toNat))
      ∧ (∀ r : Nibble, x.toNat < r.toNat → t.getReg r = s.getReg r)

/-- The four instructions that reach memory through `I` fault when their last byte is above 4095 and answer a next state when
it is not, `Dxyn` with N = 0 always; the fault names the first failing address (R62, R170, R205; that address is D15, log 9,
that an address never wraps is D16, log 17, that DRW reads clipped rows and none for N = 0 is D17, log 18). -/
def Obligations.BlockAccessFaults : Prop :=
  ∀ (s : State) (x y n : Nibble),
    (if 4095 < s.I.toNat + 2
      then exec (.ldB x) s = .fault (.memFault (max s.I.toNat 4096))
      else ∃ t, exec (.ldB x) s = .next t)
    ∧ (if 4095 < s.I.toNat + x.toNat
      then exec (.ldMemVx x) s = .fault (.memFault (max s.I.toNat 4096))
        ∧ exec (.ldVxMem x) s = .fault (.memFault (max s.I.toNat 4096))
      else (∃ t, exec (.ldMemVx x) s = .next t) ∧ ∃ t, exec (.ldVxMem x) s = .next t)
    ∧ (if 1 ≤ n.toNat ∧ 4095 < s.I.toNat + n.toNat - 1
      then exec (.drw x y n) s = .fault (.memFault (max s.I.toNat 4096))
      else ∃ t, exec (.drw x y n) s = .next t)

/-- A byte written is the byte read, every other byte is as before, and an address above 4095 is the fault MemFault of that
address (R61, R62; the bound is taken of the address as a natural number, D16, log 17). A write keeps memory in its canonical
form, which is the model's representation of memory and no rule of the spec (DESIGN CHOICE, log 11). -/
def Obligations.MemoryReadAfterWrite : Prop :=
  ∀ (s : State) (a b : Nat) (v : Byte),
    (a ≤ 4095 → ∃ t, s.writeByte a v = .ok t ∧ t = { s with mem := t.mem } ∧ t.readByte a = .ok v
      ∧ (b ≠ a → t.readByte b = s.readByte b)
      ∧ (Memory.wf s.cfg.font s.mem = true → Memory.wf t.cfg.font t.mem = true))
    ∧ (4095 < a → s.writeByte a v = .error (.memFault a) ∧ s.readByte a = .error (.memFault a))

/-- A 16-bit read is the byte at the address, times 256, plus the byte after it (R63). -/
def Obligations.FetchIsBigEndian : Prop :=
  ∀ (s : State) (a : Nat), a ≤ 4094 →
    ∃ w hi lo, s.readWord a = .ok w ∧ s.readByte a = .ok hi ∧ s.readByte (a + 1) = .ok lo
      ∧ w.toNat = hi.toNat <<< 8 ||| lo.toNat

/-! ## Display -/

/-- `00E0` makes every cell false and changes nothing else, outputs included (R181; no redraw pulse is D31, log 10). -/
def Obligations.ClearMakesEveryCellFalse : Prop :=
  ∀ s : State, ∃ t, exec .cls s = .next t ∧ t = { s with disp := t.disp } ∧ ∀ r c, t.pixel r c = false

/-- `Dxyn` with its bytes in memory inverts exactly the cells under a set sprite bit, with the origin wrapped and the rest
clipped; VF is 1 exactly when a set cell was inverted and 0 otherwise; one redraw pulse is emitted; nothing else changes
(R182, R183, R184; N = 0 and the order of VF are the spec's choice D17 and D4, log 18, log 14). -/
def Obligations.DrawInvertsSpriteCells : Prop :=
  ∀ (s : State) (x y n : Nibble), (n = 0 ∨ s.I.toNat + n.toNat ≤ 4096) →
    ∃ t, exec (.drw x y n) s = .next t
      ∧ t = { s with x := t.x, disp := t.disp, out := .redraw :: s.out }
      ∧ (∀ r, r ≠ 15 → t.getReg r = s.getReg r)
      ∧ (∀ r c, t.pixel r c = (s.pixel r c ^^ spriteBit s x y n r c))
      ∧ ((∃ r c, spriteBit s x y n r c = true ∧ s.pixel r c = true) → t.getReg 15 = 1)
      ∧ ((∀ r c, spriteBit s x y n r c = true → s.pixel r c = false) → t.getReg 15 = 0)

/-- Drawing the same sprite again at the same origin restores every cell, and collides exactly when the sprite had a set bit
inside the grid that the first draw had set (R182, R184). -/
def Obligations.DrawTwiceRestores : Prop :=
  ∀ (s t : State) (x y n : Nibble), exec (.drw x y n) s = .next t →
    t.getReg x = s.getReg x → t.getReg y = s.getReg y →
    ∃ u, exec (.drw x y n) t = .next u ∧ (∀ r c, u.pixel r c = s.pixel r c)
      ∧ (u.getReg 15 = 1 ↔ ∃ r c, spriteBit s x y n r c = true ∧ s.pixel r c = false)

/-! ## Keypad and timers -/

/-- `Ex9E` and `ExA1` with Vx at most 15 skip when the key Vx names is down, and when it is not (R190, R191). -/
def Obligations.KeySkipsTestTheLatch : Prop :=
  ∀ (s : State) (x k : Nibble), (s.getReg x).toNat = k.toNat →
    exec (.skp x) s = .next (if s.keyDown k = true then { s with pc := s.pc + 2 } else s)
    ∧ exec (.sknp x) s = .next (if s.keyDown k = false then { s with pc := s.pc + 2 } else s)

/-- `Ex9E` and `ExA1` with Vx above 15 are the fault KeyIndexFault (R190, R191, R193; the spec's choice D10, log 19). -/
def Obligations.KeySkipsFaultPastTheLatch : Prop :=
  ∀ (s : State) (x : Nibble), 15 < (s.getReg x).toNat →
    exec (.skp x) s = .fault (.keyIndexFault (s.getReg x).toNat)
    ∧ exec (.sknp x) s = .fault (.keyIndexFault (s.getReg x).toNat)

/-- `Fx0A`: with no key down `pc` goes back by 2 and nothing else changes; else Vx gets the least key that is down and
nothing else changes (R192). -/
def Obligations.WaitForKeyTakesLeastKey : Prop :=
  ∀ (s : State) (x : Nibble),
    ((∀ k, s.keyDown k = false) → exec (.ldVxK x) s = .next { s with pc := s.pc - 2 })
    ∧ (∀ k : Nibble, s.keyDown k = true → (∀ j : Nibble, j.toNat < k.toNat → s.keyDown j = false) →
        ∃ t, exec (.ldVxK x) s = .next t ∧ OnlyRegs s t [x] ∧ (t.getReg x).toNat = k.toNat)

/-- `Fx07` reads DT into Vx, `Fx15` writes DT and `Fx18` writes ST from Vx; nothing else changes (R194, R195, R196). -/
def Obligations.TimerInstructionsMoveOneByte : Prop :=
  ∀ (s : State) (x : Nibble),
    (∃ t, exec (.ldVxDT x) s = .next t ∧ OnlyRegs s t [x] ∧ t.getReg x = s.DT)
    ∧ exec (.ldDTVx x) s = .next { s with DT := s.getReg x }
    ∧ exec (.ldSTVx x) s = .next { s with ST := s.getReg x }

/-! ## Asynchronous events -/

/-- DelayTick and SoundTick take 1 from a timer that is not 0, leave one that is, and touch nothing else (R213). -/
def Obligations.TicksCountDownToZero : Prop :=
  ∀ s : State, s.fault = none →
    (∃ t, runEvent .delayTick s = .next t ∧ t = { s with DT := t.DT } ∧ t.DT.toNat = s.DT.toNat - 1)
    ∧ (∃ t, runEvent .soundTick s = .next t ∧ t = { s with ST := t.ST } ∧ t.ST.toNat = s.ST.toNat - 1)

/-- Press(k) and Release(k) set and clear the latch of key k alone, and WarmReset sets `pc` to 0x200 and nothing else (R226,
R243; that WarmReset keeps the stack, the timers and the display is the spec's choice D12, log 23). -/
def Obligations.HostControlsWriteOneField : Prop :=
  ∀ (s : State) (k : Nibble), s.fault = none →
    (∃ t, runEvent (.press k) s = .next t ∧ t = { s with key := t.key } ∧ t.keyDown k = true
      ∧ ∀ j, j ≠ k → t.keyDown j = s.keyDown j)
    ∧ (∃ t, runEvent (.release k) s = .next t ∧ t = { s with key := t.key } ∧ t.keyDown k = false
      ∧ ∀ j, j ≠ k → t.keyDown j = s.keyDown j)
    ∧ runEvent .warmReset s = .next { s with pc := 0x200 }

/-- LoadProgram copies an image of at most 3584 bytes to 0x200 upward and changes nothing else; a longer one changes no state
and is reported as RomTooLarge with its length (R224; that nothing else is cleared is the spec's choice D27, log 23). -/
def Obligations.LoadProgramCopiesOrRefuses : Prop :=
  ∀ (s : State) (image : List Byte), s.fault = none →
    (image.length ≤ 3584 → ∃ t, runEvent (.loadProgram image) s = .next t ∧ OnlyBytes s t 0x200 image.length
      ∧ ∀ k (h : k < image.length), t.peek (0x200 + k) = image[k])
    ∧ (3584 < image.length → runEvent (.loadProgram image) s
        = .next { s with out := .loadFailed (.romTooLarge image.length) :: s.out })

/-- A poll of a timer's clock that cannot read the time adds one log entry, changes nothing else and answers false (R200,
R218; the form of the entry is log 10); before one period has passed a poll changes nothing and answers false; at or past
one period it sets `last` to the time and ticks the timer once, and answers whether the timer changed. A poll of the
instruction clock is then an InstrStep (R213, R217, R220; the timestamp is the spec's choice D22, log 8). -/
def Obligations.ClockPollsFireAfterOnePeriod : Prop :=
  ∀ (s : State) (now : Rat),
    (s.fault = none → ∀ time, runEvent (.pollDelay time) s = .next (pollDelay time s).2
      ∧ runEvent (.pollSound time) s = .next (pollSound time s).2 ∧ runEvent (.pollCpu time) s = pollCpu time s)
    ∧ (pollDelay none s = (false, { s with out := .timeReadFailed :: s.out })
      ∧ pollSound none s = (false, { s with out := .timeReadFailed :: s.out })
      ∧ pollCpu none s = .next { s with out := .timeReadFailed :: s.out })
    ∧ (now - s.clkDt.last < 1 / s.clkDt.freq → pollDelay (some now) s = (false, s))
    ∧ (now - s.clkSt.last < 1 / s.clkSt.freq → pollSound (some now) s = (false, s))
    ∧ (now - s.clkCpu.last < 1 / s.clkCpu.freq → pollCpu (some now) s = .next s)
    ∧ (1 / s.clkDt.freq ≤ now - s.clkDt.last → pollDelay (some now) s
        = (decide (s.DT ≠ 0), { s with DT := if s.DT = 0 then 0 else s.DT - 1, clkDt := { s.clkDt with last := now } }))
    ∧ (1 / s.clkSt.freq ≤ now - s.clkSt.last → pollSound (some now) s
        = (decide (s.ST ≠ 0), { s with ST := if s.ST = 0 then 0 else s.ST - 1, clkSt := { s.clkSt with last := now } }))
    ∧ (1 / s.clkCpu.freq ≤ now - s.clkCpu.last → pollCpu (some now) s
        = performEvent .instrStep { s with clkCpu := { s.clkCpu with last := now } })

/-- FreqUp and FreqDown add and subtract FREQ_STEP, clamped at FREQ_FLOOR, and change nothing else, the clock's timestamp
included (R219, R229; clamping is the spec's choice D32, log 22). -/
def Obligations.FrequencyControlsClamp : Prop :=
  ∀ s : State, s.fault = none →
    runEvent .freqUp s
      = .next { s with clkCpu := { s.clkCpu with freq := max (s.clkCpu.freq + s.cfg.freqStep) s.cfg.freqFloor } }
    ∧ runEvent .freqDown s
      = .next { s with clkCpu := { s.clkCpu with freq := max (s.clkCpu.freq - s.cfg.freqStep) s.cfg.freqFloor } }
end

