-- ==== Sys2Proof/Laws/State.lean ====
section
/-! SUPPORT. One lemma per field of State per named update of Machine/Ops.lean: the field it writes, and the fields it leaves
unchanged. All are true by unfolding the update once, so that no later proof unfolds a record update. -/

namespace Sys2Proof.Machine

variable (s : State)

@[simp] theorem State.setReg_x (r : Nibble) (v : Byte) : (s.setReg r v).x = s.x.set r.toNat v r.isLt := rfl
@[simp] theorem State.setReg_pc (r : Nibble) (v : Byte) : (s.setReg r v).pc = s.pc := rfl
@[simp] theorem State.setReg_I (r : Nibble) (v : Byte) : (s.setReg r v).I = s.I := rfl
@[simp] theorem State.setReg_stack (r : Nibble) (v : Byte) : (s.setReg r v).stack = s.stack := rfl
@[simp] theorem State.setReg_mem (r : Nibble) (v : Byte) : (s.setReg r v).mem = s.mem := rfl
@[simp] theorem State.setReg_key (r : Nibble) (v : Byte) : (s.setReg r v).key = s.key := rfl
@[simp] theorem State.setReg_disp (r : Nibble) (v : Byte) : (s.setReg r v).disp = s.disp := rfl
@[simp] theorem State.setReg_DT (r : Nibble) (v : Byte) : (s.setReg r v).DT = s.DT := rfl
@[simp] theorem State.setReg_ST (r : Nibble) (v : Byte) : (s.setReg r v).ST = s.ST := rfl
@[simp] theorem State.setReg_clkCpu (r : Nibble) (v : Byte) : (s.setReg r v).clkCpu = s.clkCpu := rfl
@[simp] theorem State.setReg_clkDt (r : Nibble) (v : Byte) : (s.setReg r v).clkDt = s.clkDt := rfl
@[simp] theorem State.setReg_clkSt (r : Nibble) (v : Byte) : (s.setReg r v).clkSt = s.clkSt := rfl
@[simp] theorem State.setReg_fault (r : Nibble) (v : Byte) : (s.setReg r v).fault = s.fault := rfl
@[simp] theorem State.setReg_cfg (r : Nibble) (v : Byte) : (s.setReg r v).cfg = s.cfg := rfl
@[simp] theorem State.setReg_draws (r : Nibble) (v : Byte) : (s.setReg r v).draws = s.draws := rfl
@[simp] theorem State.setReg_inputs (r : Nibble) (v : Byte) : (s.setReg r v).inputs = s.inputs := rfl
@[simp] theorem State.setReg_out (r : Nibble) (v : Byte) : (s.setReg r v).out = s.out := rfl

@[simp] theorem State.setPc_x (v : Word) : (s.setPc v).x = s.x := rfl
@[simp] theorem State.setPc_pc (v : Word) : (s.setPc v).pc = v := rfl
@[simp] theorem State.setPc_I (v : Word) : (s.setPc v).I = s.I := rfl
@[simp] theorem State.setPc_stack (v : Word) : (s.setPc v).stack = s.stack := rfl
@[simp] theorem State.setPc_mem (v : Word) : (s.setPc v).mem = s.mem := rfl
@[simp] theorem State.setPc_key (v : Word) : (s.setPc v).key = s.key := rfl
@[simp] theorem State.setPc_disp (v : Word) : (s.setPc v).disp = s.disp := rfl
@[simp] theorem State.setPc_DT (v : Word) : (s.setPc v).DT = s.DT := rfl
@[simp] theorem State.setPc_ST (v : Word) : (s.setPc v).ST = s.ST := rfl
@[simp] theorem State.setPc_clkCpu (v : Word) : (s.setPc v).clkCpu = s.clkCpu := rfl
@[simp] theorem State.setPc_clkDt (v : Word) : (s.setPc v).clkDt = s.clkDt := rfl
@[simp] theorem State.setPc_clkSt (v : Word) : (s.setPc v).clkSt = s.clkSt := rfl
@[simp] theorem State.setPc_fault (v : Word) : (s.setPc v).fault = s.fault := rfl
@[simp] theorem State.setPc_cfg (v : Word) : (s.setPc v).cfg = s.cfg := rfl
@[simp] theorem State.setPc_draws (v : Word) : (s.setPc v).draws = s.draws := rfl
@[simp] theorem State.setPc_inputs (v : Word) : (s.setPc v).inputs = s.inputs := rfl
@[simp] theorem State.setPc_out (v : Word) : (s.setPc v).out = s.out := rfl

@[simp] theorem State.setI_x (v : Word) : (s.setI v).x = s.x := rfl
@[simp] theorem State.setI_pc (v : Word) : (s.setI v).pc = s.pc := rfl
@[simp] theorem State.setI_I (v : Word) : (s.setI v).I = v := rfl
@[simp] theorem State.setI_stack (v : Word) : (s.setI v).stack = s.stack := rfl
@[simp] theorem State.setI_mem (v : Word) : (s.setI v).mem = s.mem := rfl
@[simp] theorem State.setI_key (v : Word) : (s.setI v).key = s.key := rfl
@[simp] theorem State.setI_disp (v : Word) : (s.setI v).disp = s.disp := rfl
@[simp] theorem State.setI_DT (v : Word) : (s.setI v).DT = s.DT := rfl
@[simp] theorem State.setI_ST (v : Word) : (s.setI v).ST = s.ST := rfl
@[simp] theorem State.setI_clkCpu (v : Word) : (s.setI v).clkCpu = s.clkCpu := rfl
@[simp] theorem State.setI_clkDt (v : Word) : (s.setI v).clkDt = s.clkDt := rfl
@[simp] theorem State.setI_clkSt (v : Word) : (s.setI v).clkSt = s.clkSt := rfl
@[simp] theorem State.setI_fault (v : Word) : (s.setI v).fault = s.fault := rfl
@[simp] theorem State.setI_cfg (v : Word) : (s.setI v).cfg = s.cfg := rfl
@[simp] theorem State.setI_draws (v : Word) : (s.setI v).draws = s.draws := rfl
@[simp] theorem State.setI_inputs (v : Word) : (s.setI v).inputs = s.inputs := rfl
@[simp] theorem State.setI_out (v : Word) : (s.setI v).out = s.out := rfl

@[simp] theorem State.setDT_x (v : Byte) : (s.setDT v).x = s.x := rfl
@[simp] theorem State.setDT_pc (v : Byte) : (s.setDT v).pc = s.pc := rfl
@[simp] theorem State.setDT_I (v : Byte) : (s.setDT v).I = s.I := rfl
@[simp] theorem State.setDT_stack (v : Byte) : (s.setDT v).stack = s.stack := rfl
@[simp] theorem State.setDT_mem (v : Byte) : (s.setDT v).mem = s.mem := rfl
@[simp] theorem State.setDT_key (v : Byte) : (s.setDT v).key = s.key := rfl
@[simp] theorem State.setDT_disp (v : Byte) : (s.setDT v).disp = s.disp := rfl
@[simp] theorem State.setDT_DT (v : Byte) : (s.setDT v).DT = v := rfl
@[simp] theorem State.setDT_ST (v : Byte) : (s.setDT v).ST = s.ST := rfl
@[simp] theorem State.setDT_clkCpu (v : Byte) : (s.setDT v).clkCpu = s.clkCpu := rfl
@[simp] theorem State.setDT_clkDt (v : Byte) : (s.setDT v).clkDt = s.clkDt := rfl
@[simp] theorem State.setDT_clkSt (v : Byte) : (s.setDT v).clkSt = s.clkSt := rfl
@[simp] theorem State.setDT_fault (v : Byte) : (s.setDT v).fault = s.fault := rfl
@[simp] theorem State.setDT_cfg (v : Byte) : (s.setDT v).cfg = s.cfg := rfl
@[simp] theorem State.setDT_draws (v : Byte) : (s.setDT v).draws = s.draws := rfl
@[simp] theorem State.setDT_inputs (v : Byte) : (s.setDT v).inputs = s.inputs := rfl
@[simp] theorem State.setDT_out (v : Byte) : (s.setDT v).out = s.out := rfl

@[simp] theorem State.setST_x (v : Byte) : (s.setST v).x = s.x := rfl
@[simp] theorem State.setST_pc (v : Byte) : (s.setST v).pc = s.pc := rfl
@[simp] theorem State.setST_I (v : Byte) : (s.setST v).I = s.I := rfl
@[simp] theorem State.setST_stack (v : Byte) : (s.setST v).stack = s.stack := rfl
@[simp] theorem State.setST_mem (v : Byte) : (s.setST v).mem = s.mem := rfl
@[simp] theorem State.setST_key (v : Byte) : (s.setST v).key = s.key := rfl
@[simp] theorem State.setST_disp (v : Byte) : (s.setST v).disp = s.disp := rfl
@[simp] theorem State.setST_DT (v : Byte) : (s.setST v).DT = s.DT := rfl
@[simp] theorem State.setST_ST (v : Byte) : (s.setST v).ST = v := rfl
@[simp] theorem State.setST_clkCpu (v : Byte) : (s.setST v).clkCpu = s.clkCpu := rfl
@[simp] theorem State.setST_clkDt (v : Byte) : (s.setST v).clkDt = s.clkDt := rfl
@[simp] theorem State.setST_clkSt (v : Byte) : (s.setST v).clkSt = s.clkSt := rfl
@[simp] theorem State.setST_fault (v : Byte) : (s.setST v).fault = s.fault := rfl
@[simp] theorem State.setST_cfg (v : Byte) : (s.setST v).cfg = s.cfg := rfl
@[simp] theorem State.setST_draws (v : Byte) : (s.setST v).draws = s.draws := rfl
@[simp] theorem State.setST_inputs (v : Byte) : (s.setST v).inputs = s.inputs := rfl
@[simp] theorem State.setST_out (v : Byte) : (s.setST v).out = s.out := rfl

@[simp] theorem State.setStack_x (l : List Word) : (s.setStack l).x = s.x := rfl
@[simp] theorem State.setStack_pc (l : List Word) : (s.setStack l).pc = s.pc := rfl
@[simp] theorem State.setStack_I (l : List Word) : (s.setStack l).I = s.I := rfl
@[simp] theorem State.setStack_stack (l : List Word) : (s.setStack l).stack = l := rfl
@[simp] theorem State.setStack_mem (l : List Word) : (s.setStack l).mem = s.mem := rfl
@[simp] theorem State.setStack_key (l : List Word) : (s.setStack l).key = s.key := rfl
@[simp] theorem State.setStack_disp (l : List Word) : (s.setStack l).disp = s.disp := rfl
@[simp] theorem State.setStack_DT (l : List Word) : (s.setStack l).DT = s.DT := rfl
@[simp] theorem State.setStack_ST (l : List Word) : (s.setStack l).ST = s.ST := rfl
@[simp] theorem State.setStack_clkCpu (l : List Word) : (s.setStack l).clkCpu = s.clkCpu := rfl
@[simp] theorem State.setStack_clkDt (l : List Word) : (s.setStack l).clkDt = s.clkDt := rfl
@[simp] theorem State.setStack_clkSt (l : List Word) : (s.setStack l).clkSt = s.clkSt := rfl
@[simp] theorem State.setStack_fault (l : List Word) : (s.setStack l).fault = s.fault := rfl
@[simp] theorem State.setStack_cfg (l : List Word) : (s.setStack l).cfg = s.cfg := rfl
@[simp] theorem State.setStack_draws (l : List Word) : (s.setStack l).draws = s.draws := rfl
@[simp] theorem State.setStack_inputs (l : List Word) : (s.setStack l).inputs = s.inputs := rfl
@[simp] theorem State.setStack_out (l : List Word) : (s.setStack l).out = s.out := rfl

@[simp] theorem State.poke_x (a : Nat) (v : Byte) : (s.poke a v).x = s.x := rfl
@[simp] theorem State.poke_pc (a : Nat) (v : Byte) : (s.poke a v).pc = s.pc := rfl
@[simp] theorem State.poke_I (a : Nat) (v : Byte) : (s.poke a v).I = s.I := rfl
@[simp] theorem State.poke_stack (a : Nat) (v : Byte) : (s.poke a v).stack = s.stack := rfl
@[simp] theorem State.poke_mem (a : Nat) (v : Byte) : (s.poke a v).mem = memPut s.cfg.font a v s.mem := rfl
@[simp] theorem State.poke_key (a : Nat) (v : Byte) : (s.poke a v).key = s.key := rfl
@[simp] theorem State.poke_disp (a : Nat) (v : Byte) : (s.poke a v).disp = s.disp := rfl
@[simp] theorem State.poke_DT (a : Nat) (v : Byte) : (s.poke a v).DT = s.DT := rfl
@[simp] theorem State.poke_ST (a : Nat) (v : Byte) : (s.poke a v).ST = s.ST := rfl
@[simp] theorem State.poke_clkCpu (a : Nat) (v : Byte) : (s.poke a v).clkCpu = s.clkCpu := rfl
@[simp] theorem State.poke_clkDt (a : Nat) (v : Byte) : (s.poke a v).clkDt = s.clkDt := rfl
@[simp] theorem State.poke_clkSt (a : Nat) (v : Byte) : (s.poke a v).clkSt = s.clkSt := rfl
@[simp] theorem State.poke_fault (a : Nat) (v : Byte) : (s.poke a v).fault = s.fault := rfl
@[simp] theorem State.poke_cfg (a : Nat) (v : Byte) : (s.poke a v).cfg = s.cfg := rfl
@[simp] theorem State.poke_draws (a : Nat) (v : Byte) : (s.poke a v).draws = s.draws := rfl
@[simp] theorem State.poke_inputs (a : Nat) (v : Byte) : (s.poke a v).inputs = s.inputs := rfl
@[simp] theorem State.poke_out (a : Nat) (v : Byte) : (s.poke a v).out = s.out := rfl

@[simp] theorem State.setKey_x (k : Nibble) (b : Bool) : (s.setKey k b).x = s.x := rfl
@[simp] theorem State.setKey_pc (k : Nibble) (b : Bool) : (s.setKey k b).pc = s.pc := rfl
@[simp] theorem State.setKey_I (k : Nibble) (b : Bool) : (s.setKey k b).I = s.I := rfl
@[simp] theorem State.setKey_stack (k : Nibble) (b : Bool) : (s.setKey k b).stack = s.stack := rfl
@[simp] theorem State.setKey_mem (k : Nibble) (b : Bool) : (s.setKey k b).mem = s.mem := rfl
@[simp] theorem State.setKey_key (k : Nibble) (b : Bool) : (s.setKey k b).key = s.key.set k.toNat b k.isLt := rfl
@[simp] theorem State.setKey_disp (k : Nibble) (b : Bool) : (s.setKey k b).disp = s.disp := rfl
@[simp] theorem State.setKey_DT (k : Nibble) (b : Bool) : (s.setKey k b).DT = s.DT := rfl
@[simp] theorem State.setKey_ST (k : Nibble) (b : Bool) : (s.setKey k b).ST = s.ST := rfl
@[simp] theorem State.setKey_clkCpu (k : Nibble) (b : Bool) : (s.setKey k b).clkCpu = s.clkCpu := rfl
@[simp] theorem State.setKey_clkDt (k : Nibble) (b : Bool) : (s.setKey k b).clkDt = s.clkDt := rfl
@[simp] theorem State.setKey_clkSt (k : Nibble) (b : Bool) : (s.setKey k b).clkSt = s.clkSt := rfl
@[simp] theorem State.setKey_fault (k : Nibble) (b : Bool) : (s.setKey k b).fault = s.fault := rfl
@[simp] theorem State.setKey_cfg (k : Nibble) (b : Bool) : (s.setKey k b).cfg = s.cfg := rfl
@[simp] theorem State.setKey_draws (k : Nibble) (b : Bool) : (s.setKey k b).draws = s.draws := rfl
@[simp] theorem State.setKey_inputs (k : Nibble) (b : Bool) : (s.setKey k b).inputs = s.inputs := rfl
@[simp] theorem State.setKey_out (k : Nibble) (b : Bool) : (s.setKey k b).out = s.out := rfl

@[simp] theorem State.setDisp_x (d : Grid) : (s.setDisp d).x = s.x := rfl
@[simp] theorem State.setDisp_pc (d : Grid) : (s.setDisp d).pc = s.pc := rfl
@[simp] theorem State.setDisp_I (d : Grid) : (s.setDisp d).I = s.I := rfl
@[simp] theorem State.setDisp_stack (d : Grid) : (s.setDisp d).stack = s.stack := rfl
@[simp] theorem State.setDisp_mem (d : Grid) : (s.setDisp d).mem = s.mem := rfl
@[simp] theorem State.setDisp_key (d : Grid) : (s.setDisp d).key = s.key := rfl
@[simp] theorem State.setDisp_disp (d : Grid) : (s.setDisp d).disp = d := rfl
@[simp] theorem State.setDisp_DT (d : Grid) : (s.setDisp d).DT = s.DT := rfl
@[simp] theorem State.setDisp_ST (d : Grid) : (s.setDisp d).ST = s.ST := rfl
@[simp] theorem State.setDisp_clkCpu (d : Grid) : (s.setDisp d).clkCpu = s.clkCpu := rfl
@[simp] theorem State.setDisp_clkDt (d : Grid) : (s.setDisp d).clkDt = s.clkDt := rfl
@[simp] theorem State.setDisp_clkSt (d : Grid) : (s.setDisp d).clkSt = s.clkSt := rfl
@[simp] theorem State.setDisp_fault (d : Grid) : (s.setDisp d).fault = s.fault := rfl
@[simp] theorem State.setDisp_cfg (d : Grid) : (s.setDisp d).cfg = s.cfg := rfl
@[simp] theorem State.setDisp_draws (d : Grid) : (s.setDisp d).draws = s.draws := rfl
@[simp] theorem State.setDisp_inputs (d : Grid) : (s.setDisp d).inputs = s.inputs := rfl
@[simp] theorem State.setDisp_out (d : Grid) : (s.setDisp d).out = s.out := rfl

@[simp] theorem State.setClkCpu_x (c : Clock) : (s.setClkCpu c).x = s.x := rfl
@[simp] theorem State.setClkCpu_pc (c : Clock) : (s.setClkCpu c).pc = s.pc := rfl
@[simp] theorem State.setClkCpu_I (c : Clock) : (s.setClkCpu c).I = s.I := rfl
@[simp] theorem State.setClkCpu_stack (c : Clock) : (s.setClkCpu c).stack = s.stack := rfl
@[simp] theorem State.setClkCpu_mem (c : Clock) : (s.setClkCpu c).mem = s.mem := rfl
@[simp] theorem State.setClkCpu_key (c : Clock) : (s.setClkCpu c).key = s.key := rfl
@[simp] theorem State.setClkCpu_disp (c : Clock) : (s.setClkCpu c).disp = s.disp := rfl
@[simp] theorem State.setClkCpu_DT (c : Clock) : (s.setClkCpu c).DT = s.DT := rfl
@[simp] theorem State.setClkCpu_ST (c : Clock) : (s.setClkCpu c).ST = s.ST := rfl
@[simp] theorem State.setClkCpu_clkCpu (c : Clock) : (s.setClkCpu c).clkCpu = c := rfl
@[simp] theorem State.setClkCpu_clkDt (c : Clock) : (s.setClkCpu c).clkDt = s.clkDt := rfl
@[simp] theorem State.setClkCpu_clkSt (c : Clock) : (s.setClkCpu c).clkSt = s.clkSt := rfl
@[simp] theorem State.setClkCpu_fault (c : Clock) : (s.setClkCpu c).fault = s.fault := rfl
@[simp] theorem State.setClkCpu_cfg (c : Clock) : (s.setClkCpu c).cfg = s.cfg := rfl
@[simp] theorem State.setClkCpu_draws (c : Clock) : (s.setClkCpu c).draws = s.draws := rfl
@[simp] theorem State.setClkCpu_inputs (c : Clock) : (s.setClkCpu c).inputs = s.inputs := rfl
@[simp] theorem State.setClkCpu_out (c : Clock) : (s.setClkCpu c).out = s.out := rfl

@[simp] theorem State.setClkDt_x (c : Clock) : (s.setClkDt c).x = s.x := rfl
@[simp] theorem State.setClkDt_pc (c : Clock) : (s.setClkDt c).pc = s.pc := rfl
@[simp] theorem State.setClkDt_I (c : Clock) : (s.setClkDt c).I = s.I := rfl
@[simp] theorem State.setClkDt_stack (c : Clock) : (s.setClkDt c).stack = s.stack := rfl
@[simp] theorem State.setClkDt_mem (c : Clock) : (s.setClkDt c).mem = s.mem := rfl
@[simp] theorem State.setClkDt_key (c : Clock) : (s.setClkDt c).key = s.key := rfl
@[simp] theorem State.setClkDt_disp (c : Clock) : (s.setClkDt c).disp = s.disp := rfl
@[simp] theorem State.setClkDt_DT (c : Clock) : (s.setClkDt c).DT = s.DT := rfl
@[simp] theorem State.setClkDt_ST (c : Clock) : (s.setClkDt c).ST = s.ST := rfl
@[simp] theorem State.setClkDt_clkCpu (c : Clock) : (s.setClkDt c).clkCpu = s.clkCpu := rfl
@[simp] theorem State.setClkDt_clkDt (c : Clock) : (s.setClkDt c).clkDt = c := rfl
@[simp] theorem State.setClkDt_clkSt (c : Clock) : (s.setClkDt c).clkSt = s.clkSt := rfl
@[simp] theorem State.setClkDt_fault (c : Clock) : (s.setClkDt c).fault = s.fault := rfl
@[simp] theorem State.setClkDt_cfg (c : Clock) : (s.setClkDt c).cfg = s.cfg := rfl
@[simp] theorem State.setClkDt_draws (c : Clock) : (s.setClkDt c).draws = s.draws := rfl
@[simp] theorem State.setClkDt_inputs (c : Clock) : (s.setClkDt c).inputs = s.inputs := rfl
@[simp] theorem State.setClkDt_out (c : Clock) : (s.setClkDt c).out = s.out := rfl

@[simp] theorem State.setClkSt_x (c : Clock) : (s.setClkSt c).x = s.x := rfl
@[simp] theorem State.setClkSt_pc (c : Clock) : (s.setClkSt c).pc = s.pc := rfl
@[simp] theorem State.setClkSt_I (c : Clock) : (s.setClkSt c).I = s.I := rfl
@[simp] theorem State.setClkSt_stack (c : Clock) : (s.setClkSt c).stack = s.stack := rfl
@[simp] theorem State.setClkSt_mem (c : Clock) : (s.setClkSt c).mem = s.mem := rfl
@[simp] theorem State.setClkSt_key (c : Clock) : (s.setClkSt c).key = s.key := rfl
@[simp] theorem State.setClkSt_disp (c : Clock) : (s.setClkSt c).disp = s.disp := rfl
@[simp] theorem State.setClkSt_DT (c : Clock) : (s.setClkSt c).DT = s.DT := rfl
@[simp] theorem State.setClkSt_ST (c : Clock) : (s.setClkSt c).ST = s.ST := rfl
@[simp] theorem State.setClkSt_clkCpu (c : Clock) : (s.setClkSt c).clkCpu = s.clkCpu := rfl
@[simp] theorem State.setClkSt_clkDt (c : Clock) : (s.setClkSt c).clkDt = s.clkDt := rfl
@[simp] theorem State.setClkSt_clkSt (c : Clock) : (s.setClkSt c).clkSt = c := rfl
@[simp] theorem State.setClkSt_fault (c : Clock) : (s.setClkSt c).fault = s.fault := rfl
@[simp] theorem State.setClkSt_cfg (c : Clock) : (s.setClkSt c).cfg = s.cfg := rfl
@[simp] theorem State.setClkSt_draws (c : Clock) : (s.setClkSt c).draws = s.draws := rfl
@[simp] theorem State.setClkSt_inputs (c : Clock) : (s.setClkSt c).inputs = s.inputs := rfl
@[simp] theorem State.setClkSt_out (c : Clock) : (s.setClkSt c).out = s.out := rfl

@[simp] theorem State.setFault_x (c : Fault) : (s.setFault c).x = s.x := rfl
@[simp] theorem State.setFault_pc (c : Fault) : (s.setFault c).pc = s.pc := rfl
@[simp] theorem State.setFault_I (c : Fault) : (s.setFault c).I = s.I := rfl
@[simp] theorem State.setFault_stack (c : Fault) : (s.setFault c).stack = s.stack := rfl
@[simp] theorem State.setFault_mem (c : Fault) : (s.setFault c).mem = s.mem := rfl
@[simp] theorem State.setFault_key (c : Fault) : (s.setFault c).key = s.key := rfl
@[simp] theorem State.setFault_disp (c : Fault) : (s.setFault c).disp = s.disp := rfl
@[simp] theorem State.setFault_DT (c : Fault) : (s.setFault c).DT = s.DT := rfl
@[simp] theorem State.setFault_ST (c : Fault) : (s.setFault c).ST = s.ST := rfl
@[simp] theorem State.setFault_clkCpu (c : Fault) : (s.setFault c).clkCpu = s.clkCpu := rfl
@[simp] theorem State.setFault_clkDt (c : Fault) : (s.setFault c).clkDt = s.clkDt := rfl
@[simp] theorem State.setFault_clkSt (c : Fault) : (s.setFault c).clkSt = s.clkSt := rfl
@[simp] theorem State.setFault_fault (c : Fault) : (s.setFault c).fault = some c := rfl
@[simp] theorem State.setFault_cfg (c : Fault) : (s.setFault c).cfg = s.cfg := rfl
@[simp] theorem State.setFault_draws (c : Fault) : (s.setFault c).draws = s.draws := rfl
@[simp] theorem State.setFault_inputs (c : Fault) : (s.setFault c).inputs = s.inputs := rfl
@[simp] theorem State.setFault_out (c : Fault) : (s.setFault c).out = s.out := rfl

@[simp] theorem State.setInputs_x (l : List Event) : (s.setInputs l).x = s.x := rfl
@[simp] theorem State.setInputs_pc (l : List Event) : (s.setInputs l).pc = s.pc := rfl
@[simp] theorem State.setInputs_I (l : List Event) : (s.setInputs l).I = s.I := rfl
@[simp] theorem State.setInputs_stack (l : List Event) : (s.setInputs l).stack = s.stack := rfl
@[simp] theorem State.setInputs_mem (l : List Event) : (s.setInputs l).mem = s.mem := rfl
@[simp] theorem State.setInputs_key (l : List Event) : (s.setInputs l).key = s.key := rfl
@[simp] theorem State.setInputs_disp (l : List Event) : (s.setInputs l).disp = s.disp := rfl
@[simp] theorem State.setInputs_DT (l : List Event) : (s.setInputs l).DT = s.DT := rfl
@[simp] theorem State.setInputs_ST (l : List Event) : (s.setInputs l).ST = s.ST := rfl
@[simp] theorem State.setInputs_clkCpu (l : List Event) : (s.setInputs l).clkCpu = s.clkCpu := rfl
@[simp] theorem State.setInputs_clkDt (l : List Event) : (s.setInputs l).clkDt = s.clkDt := rfl
@[simp] theorem State.setInputs_clkSt (l : List Event) : (s.setInputs l).clkSt = s.clkSt := rfl
@[simp] theorem State.setInputs_fault (l : List Event) : (s.setInputs l).fault = s.fault := rfl
@[simp] theorem State.setInputs_cfg (l : List Event) : (s.setInputs l).cfg = s.cfg := rfl
@[simp] theorem State.setInputs_draws (l : List Event) : (s.setInputs l).draws = s.draws := rfl
@[simp] theorem State.setInputs_inputs (l : List Event) : (s.setInputs l).inputs = l := rfl
@[simp] theorem State.setInputs_out (l : List Event) : (s.setInputs l).out = s.out := rfl

@[simp] theorem State.countDraw_x : s.countDraw.x = s.x := rfl
@[simp] theorem State.countDraw_pc : s.countDraw.pc = s.pc := rfl
@[simp] theorem State.countDraw_I : s.countDraw.I = s.I := rfl
@[simp] theorem State.countDraw_stack : s.countDraw.stack = s.stack := rfl
@[simp] theorem State.countDraw_mem : s.countDraw.mem = s.mem := rfl
@[simp] theorem State.countDraw_key : s.countDraw.key = s.key := rfl
@[simp] theorem State.countDraw_disp : s.countDraw.disp = s.disp := rfl
@[simp] theorem State.countDraw_DT : s.countDraw.DT = s.DT := rfl
@[simp] theorem State.countDraw_ST : s.countDraw.ST = s.ST := rfl
@[simp] theorem State.countDraw_clkCpu : s.countDraw.clkCpu = s.clkCpu := rfl
@[simp] theorem State.countDraw_clkDt : s.countDraw.clkDt = s.clkDt := rfl
@[simp] theorem State.countDraw_clkSt : s.countDraw.clkSt = s.clkSt := rfl
@[simp] theorem State.countDraw_fault : s.countDraw.fault = s.fault := rfl
@[simp] theorem State.countDraw_cfg : s.countDraw.cfg = s.cfg := rfl
@[simp] theorem State.countDraw_draws : s.countDraw.draws = s.draws + 1 := rfl
@[simp] theorem State.countDraw_inputs : s.countDraw.inputs = s.inputs := rfl
@[simp] theorem State.countDraw_out : s.countDraw.out = s.out := rfl

@[simp] theorem State.emit_x (o : Output) : (s.emit o).x = s.x := rfl
@[simp] theorem State.emit_pc (o : Output) : (s.emit o).pc = s.pc := rfl
@[simp] theorem State.emit_I (o : Output) : (s.emit o).I = s.I := rfl
@[simp] theorem State.emit_stack (o : Output) : (s.emit o).stack = s.stack := rfl
@[simp] theorem State.emit_mem (o : Output) : (s.emit o).mem = s.mem := rfl
@[simp] theorem State.emit_key (o : Output) : (s.emit o).key = s.key := rfl
@[simp] theorem State.emit_disp (o : Output) : (s.emit o).disp = s.disp := rfl
@[simp] theorem State.emit_DT (o : Output) : (s.emit o).DT = s.DT := rfl
@[simp] theorem State.emit_ST (o : Output) : (s.emit o).ST = s.ST := rfl
@[simp] theorem State.emit_clkCpu (o : Output) : (s.emit o).clkCpu = s.clkCpu := rfl
@[simp] theorem State.emit_clkDt (o : Output) : (s.emit o).clkDt = s.clkDt := rfl
@[simp] theorem State.emit_clkSt (o : Output) : (s.emit o).clkSt = s.clkSt := rfl
@[simp] theorem State.emit_fault (o : Output) : (s.emit o).fault = s.fault := rfl
@[simp] theorem State.emit_cfg (o : Output) : (s.emit o).cfg = s.cfg := rfl
@[simp] theorem State.emit_draws (o : Output) : (s.emit o).draws = s.draws := rfl
@[simp] theorem State.emit_inputs (o : Output) : (s.emit o).inputs = s.inputs := rfl
@[simp] theorem State.emit_out (o : Output) : (s.emit o).out = o :: s.out := rfl

end Sys2Proof.Machine
end

