-- ==== Sys2Proof/Laws/Memory.lean ====
section
/-! SUPPORT. Memory: read after write, the canonical form and that every operation keeps it, and what the block reads and
writes answer. -/

namespace Sys2Proof.Machine

/-! Lists of cells. -/

theorem memLookup_memErase (a b : Nat) (m : Memory) :
    memLookup a (memErase b m) = if a = b then none else memLookup a m := by
  induction m with
  | nil => simp [memErase, memLookup]
  | cons c m ih =>
    obtain ⟨d, v⟩ := c
    simp only [memErase]
    split
    · next h => subst h; rw [ih]; simp only [memLookup]; split <;> rfl
    · next h =>
      simp only [memLookup]
      split
      · next h' => subst h'; rw [if_neg (Ne.symm h)]
      · exact ih

theorem memLookup_memInsert (a b : Nat) (v : Byte) (m : Memory) (h : memLookup b m = none) :
    memLookup a (memInsert b v m) = if a = b then some v else memLookup a m := by
  induction m with
  | nil => simp [memInsert, memLookup]
  | cons c m ih =>
    obtain ⟨d, u⟩ := c
    simp only [memInsert]
    split
    · simp only [memLookup]
    · simp only [memLookup] at h ⊢
      by_cases hbd : b = d
      · rw [if_pos hbd] at h; cases h
      · rw [if_neg hbd] at h
        rw [ih h]
        by_cases had : a = d
        · subst had; rw [if_pos rfl, if_neg (Ne.symm hbd), if_pos rfl]
        · simp only [if_neg had]

/-- Read after write over the power-on content, at every address and for every list. -/
theorem memLookup_memPut (font : Vector Byte 80) (a b : Nat) (v : Byte) (m : Memory) :
    (memLookup a (memPut font b v m)).getD (initByte font a)
      = if a = b then v else (memLookup a m).getD (initByte font a) := by
  have hb : memLookup b (memErase b m) = none := by simp [memLookup_memErase]
  unfold memPut
  split
  · next h => rw [memLookup_memErase]; split <;> simp_all
  · rw [memLookup_memInsert _ _ _ _ hb, memLookup_memErase]; split <;> simp_all

theorem memSorted_mono (font : Vector Byte 80) {lo lo' : Nat} (h : lo' ≤ lo) (m : Memory)
    (hm : memSorted font lo m = true) : memSorted font lo' m = true := by
  cases m with
  | nil => rfl
  | cons c m =>
    obtain ⟨a, v⟩ := c
    simp only [memSorted, Bool.and_eq_true, decide_eq_true_eq] at hm ⊢
    exact ⟨⟨⟨by omega, hm.1.1.2⟩, hm.1.2⟩, hm.2⟩

theorem memErase_sorted (font : Vector Byte 80) (a lo : Nat) (m : Memory)
    (hm : memSorted font lo m = true) : memSorted font lo (memErase a m) = true := by
  induction m generalizing lo with
  | nil => rfl
  | cons c m ih =>
    obtain ⟨b, v⟩ := c
    simp only [memSorted, Bool.and_eq_true, decide_eq_true_eq] at hm
    simp only [memErase]
    split
    · exact memSorted_mono font (by omega) _ (ih _ hm.2)
    · simp only [memSorted, Bool.and_eq_true, decide_eq_true_eq]
      exact ⟨hm.1, ih _ hm.2⟩

theorem memInsert_sorted (font : Vector Byte 80) (a lo : Nat) (v : Byte) (m : Memory) (hlo : lo ≤ a) (ha : a ≤ 4095)
    (hv : v ≠ initByte font a) (hn : memLookup a m = none) (hm : memSorted font lo m = true) :
    memSorted font lo (memInsert a v m) = true := by
  have hb : (!(v == initByte font a)) = true := by simpa using hv
  induction m generalizing lo with
  | nil =>
    simp only [memInsert, memSorted, Bool.and_eq_true, decide_eq_true_eq]
    exact ⟨⟨⟨hlo, ha⟩, hb⟩, trivial⟩
  | cons c m ih =>
    obtain ⟨b, u⟩ := c
    simp only [memSorted, Bool.and_eq_true, decide_eq_true_eq] at hm
    simp only [memLookup] at hn
    simp only [memInsert]
    split
    · next h =>
      simp only [memSorted, Bool.and_eq_true, decide_eq_true_eq]
      exact ⟨⟨⟨hlo, ha⟩, hb⟩, ⟨⟨by omega, hm.1.1.2⟩, hm.1.2⟩, hm.2⟩
    · next h =>
      by_cases hab : a = b
      · rw [if_pos hab] at hn; cases hn
      · rw [if_neg hab] at hn
        simp only [memSorted, Bool.and_eq_true, decide_eq_true_eq]
        exact ⟨hm.1, ih _ (by omega) hn hm.2⟩

/-- A write at an address of the hardware keeps the canonical form. -/
theorem memPut_wf (font : Vector Byte 80) (a : Nat) (v : Byte) (m : Memory) (ha : a ≤ 4095)
    (hm : Memory.wf font m = true) : Memory.wf font (memPut font a v m) = true := by
  unfold Memory.wf memPut at *
  split
  · exact memErase_sorted _ _ _ _ hm
  · next h =>
    exact memInsert_sorted _ _ _ _ _ (Nat.zero_le _) ha h (by simp [memLookup_memErase])
      (memErase_sorted _ _ _ _ hm)

/-! The operations of Machine/Ops.lean. -/

variable (s : State)

/-- Read after write (`20_memory.md` R61), in every state. -/
theorem State.peek_poke (a b : Nat) (v : Byte) : (s.poke b v).peek a = if a = b then v else s.peek a := by
  simp only [State.peek, State.poke, memLookup_memPut]

@[simp] theorem State.peek_poke_self (a : Nat) (v : Byte) : (s.poke a v).peek a = v := by simp [State.peek_poke]

@[simp] theorem State.peek_poke_ne {a b : Nat} (h : a ≠ b) (v : Byte) : (s.poke b v).peek a = s.peek a := by
  simp [State.peek_poke, h]

/-- Two states with the same memory and the same font read alike. -/
theorem State.peek_congr {s t : State} (hm : s.mem = t.mem) (hc : s.cfg = t.cfg) (a : Nat) : s.peek a = t.peek a := by
  simp only [State.peek, hm, hc]

/-- A poke at an address of the hardware keeps the canonical form. -/
theorem State.poke_wf (a : Nat) (v : Byte) (ha : a ≤ 4095) (h : Memory.wf s.cfg.font s.mem = true) :
    Memory.wf (s.poke a v).cfg.font (s.poke a v).mem = true := memPut_wf _ _ _ _ ha h

/-- Pokes change memory only. -/
theorem State.pokeBytes_frame (a : Nat) (bs : List Byte) :
    s.pokeBytes a bs = { s with mem := (s.pokeBytes a bs).mem } := by
  induction bs generalizing s a with
  | nil => rfl
  | cons b bs ih => rw [State.pokeBytes, ih]; rfl

@[simp] theorem State.pokeBytes_cfg (a : Nat) (bs : List Byte) : (s.pokeBytes a bs).cfg = s.cfg := by
  rw [State.pokeBytes_frame]

/-- A byte after pokes: the listed byte within the block, the old byte outside it. -/
theorem State.peek_pokeBytes (a b : Nat) (bs : List Byte) :
    (s.pokeBytes b bs).peek a = if b ≤ a ∧ a < b + bs.length then bs.getD (a - b) 0 else s.peek a := by
  induction bs generalizing s b with
  | nil => simp [State.pokeBytes]
  | cons v bs ih =>
    rw [State.pokeBytes, ih, State.peek_poke, List.length_cons]
    by_cases h1 : a = b
    · subst h1; rw [if_neg (by omega), if_pos rfl, if_pos (by omega), Nat.sub_self]; rfl
    · rw [if_neg h1]
      by_cases h2 : b + 1 ≤ a ∧ a < b + 1 + bs.length
      · rw [if_pos h2, if_pos (by omega), show a - b = (a - (b + 1)) + 1 by omega]; rfl
      · rw [if_neg h2, if_neg (by omega)]

/-- Pokes within the hardware's addresses keep the canonical form. -/
theorem State.pokeBytes_wf (a : Nat) (bs : List Byte) (ha : a + bs.length ≤ 4096)
    (h : Memory.wf s.cfg.font s.mem = true) :
    Memory.wf (s.pokeBytes a bs).cfg.font (s.pokeBytes a bs).mem = true := by
  induction bs generalizing s a with
  | nil => exact h
  | cons b bs ih =>
    rw [List.length_cons] at ha
    exact ih _ _ (by omega) (State.poke_wf s a b (by omega) h)

/-- What a block read answers: the bytes, or the fault of the first address above 4095. -/
theorem State.readBytes_eq (a n : Nat) :
    s.readBytes a n = if n = 0 ∨ a + n ≤ 4096 then .ok ((List.range n).map fun k => s.peek (a + k))
      else .error (.memFault (max a 4096)) := by
  induction n generalizing a with
  | zero => simp [State.readBytes]
  | succ n ih =>
    simp only [State.readBytes, State.readByte, ih]
    by_cases h : a ≤ 4095
    · rw [if_pos h]
      by_cases h2 : a + (n + 1) ≤ 4096
      · rw [if_pos (by omega), if_pos (by omega)]
        simp [List.range_succ_eq_map, Function.comp_def, Nat.add_comm, Nat.add_left_comm]
      · rw [if_neg (by omega), if_neg (by omega), show max (a + 1) 4096 = max a 4096 by omega]
    · simp only [if_neg h]
      rw [if_neg (by omega), show max a 4096 = a by omega]

/-- What a block write answers: the state after the pokes, or the fault of the first address above 4095. -/
theorem State.writeBytes_eq (a : Nat) (bs : List Byte) :
    s.writeBytes a bs = if bs = [] ∨ a + bs.length ≤ 4096 then .ok (s.pokeBytes a bs)
      else .error (.memFault (max a 4096)) := by
  induction bs generalizing s a with
  | nil => simp [State.writeBytes, State.pokeBytes]
  | cons b bs ih =>
    simp only [State.writeBytes, State.writeByte, List.length_cons]
    by_cases h : a ≤ 4095
    · simp only [if_pos h, ih, State.pokeBytes]
      by_cases h2 : a + (bs.length + 1) ≤ 4096
      · rw [if_pos (by omega), if_pos (Or.inr h2)]
      · have hne : bs ≠ [] := by rintro rfl; simp at h2; omega
        rw [if_neg (by simp [hne]; omega), if_neg (by simp; omega), show max (a + 1) 4096 = max a 4096 by omega]
    · simp only [if_neg h]
      rw [if_neg (by simp; omega), show max a 4096 = a by omega]

/-- What a 16-bit read answers: two bytes, high byte first, or the fault of the first address above 4095. -/
theorem State.readWord_eq (a : Nat) :
    s.readWord a = if a ≤ 4094 then .ok (joinBytes (s.peek a) (s.peek (a + 1)))
      else .error (.memFault (max a 4096)) := by
  unfold State.readWord State.readByte
  by_cases h : a ≤ 4094
  · rw [if_pos h, if_pos (by omega)]; simp only []; rw [if_pos (by omega)]
  · rw [if_neg h]
    by_cases h2 : a ≤ 4095
    · rw [if_pos h2]; simp only []; rw [if_neg (by omega), show max a 4096 = a + 1 by omega]
    · rw [if_neg h2, show max a 4096 = a by omega]

/-- The state at power-on has its memory in the canonical form. -/
theorem State.reset_mem_wf : Memory.wf State.reset.cfg.font State.reset.mem = true := rfl

end Sys2Proof.Machine
end

