-- ==== Sys2Proof/Laws/Registers.lean ====
section
/-! SUPPORT. The register file: a read after a write, the host's contract, VF, and the block loads and stores of registers. -/

namespace Sys2Proof.Machine

variable (s : State)

/-- A read after a write gives the value written at its own register and the old value elsewhere. -/
theorem State.getReg_setReg (r q : Nibble) (v : Byte) :
    (s.setReg r v).getReg q = if q = r then v else s.getReg q := by
  simp only [State.getReg, State.setReg, Vector.getElem_set, BitVec.toNat_inj, eq_comm]

@[simp] theorem State.getReg_setReg_self (r : Nibble) (v : Byte) : (s.setReg r v).getReg r = v := by
  simp [State.getReg_setReg]

@[simp] theorem State.getReg_setReg_ne {r q : Nibble} (h : q ≠ r) (v : Byte) :
    (s.setReg r v).getReg q = s.getReg q := by
  simp [State.getReg_setReg, h]

/-- Two states with the same registers read alike. -/
theorem State.getReg_congr {s t : State} (h : s.x = t.x) (r : Nibble) : s.getReg r = t.getReg r := by
  simp only [State.getReg, h]

@[simp] theorem State.getReg_setPc (v : Word) (r : Nibble) : (s.setPc v).getReg r = s.getReg r := rfl
@[simp] theorem State.getReg_setI (v : Word) (r : Nibble) : (s.setI v).getReg r = s.getReg r := rfl
@[simp] theorem State.getReg_setDT (v : Byte) (r : Nibble) : (s.setDT v).getReg r = s.getReg r := rfl
@[simp] theorem State.getReg_setST (v : Byte) (r : Nibble) : (s.setST v).getReg r = s.getReg r := rfl
@[simp] theorem State.getReg_setDisp (d : Grid) (r : Nibble) : (s.setDisp d).getReg r = s.getReg r := rfl
@[simp] theorem State.getReg_setStack (l : List Word) (r : Nibble) : (s.setStack l).getReg r = s.getReg r := rfl
@[simp] theorem State.getReg_poke (a : Nat) (v : Byte) (r : Nibble) : (s.poke a v).getReg r = s.getReg r := rfl
@[simp] theorem State.getReg_emit (o : Output) (r : Nibble) : (s.emit o).getReg r = s.getReg r := rfl
@[simp] theorem State.getReg_countDraw (r : Nibble) : s.countDraw.getReg r = s.getReg r := rfl

/-- Two register files that read alike everywhere are equal. -/
theorem State.x_ext {s t : State} (h : ∀ r : Nibble, s.getReg r = t.getReg r) : s.x = t.x := by
  apply Vector.ext
  intro i hi
  have := h (BitVec.ofNat 4 i)
  simpa [State.getReg, Nat.mod_eq_of_lt hi] using this

/-- The host's `get` with an index of 0 to 15 is the register's value, and with any other the fault RegIndexFault. -/
theorem State.regGet_eq (r : Nat) :
    s.regGet r = if r ≤ 15 then .ok (s.getReg (BitVec.ofNat 4 r)) else .error (.regIndexFault r) := rfl

@[simp] theorem State.regGet_toNat (r : Nibble) : s.regGet r.toNat = .ok (s.getReg r) := by
  have := r.isLt
  rw [State.regGet_eq, if_pos (by omega)]
  simp

/-- VF after a result and its flag: the flag, whatever register the result went to (D4). -/
@[simp] theorem State.setResultAndFlag_VF (x : Nibble) (v : Byte) (b : Bool) :
    (s.setResultAndFlag x v b).getReg 15 = flagByte b := by
  simp [State.setResultAndFlag, State.setVF]

/-- Any other register after a result and its flag. -/
theorem State.setResultAndFlag_getReg (x q : Nibble) (v : Byte) (b : Bool) (h : q ≠ 15) :
    (s.setResultAndFlag x v b).getReg q = if q = x then v else s.getReg q := by
  simp only [State.setResultAndFlag, State.setVF, State.getReg_setReg, if_neg h]

/-- A result and its flag change registers only. -/
theorem State.setResultAndFlag_frame (x : Nibble) (v : Byte) (b : Bool) :
    s.setResultAndFlag x v b = { s with x := (s.setResultAndFlag x v b).x } := rfl

/-- A block load changes registers only. -/
theorem State.setRegsFrom_frame (i : Nat) (bs : List Byte) :
    s.setRegsFrom i bs = { s with x := (s.setRegsFrom i bs).x } := by
  induction bs generalizing s i with
  | nil => rfl
  | cons b bs ih => rw [State.setRegsFrom, ih]; rfl

/-- A register after a block load from index `i` that stays within the file. -/
theorem State.setRegsFrom_getReg (i : Nat) (bs : List Byte) (h : i + bs.length ≤ 16) (q : Nibble) :
    (s.setRegsFrom i bs).getReg q
      = if i ≤ q.toNat ∧ q.toNat < i + bs.length then bs.getD (q.toNat - i) 0 else s.getReg q := by
  induction bs generalizing s i with
  | nil => simp [State.setRegsFrom]
  | cons b bs ih =>
    simp only [List.length_cons] at h ⊢
    have hi : i < 16 := by omega
    have hq : q = BitVec.ofNat 4 i ↔ q.toNat = i := by
      rw [← BitVec.toNat_inj, BitVec.toNat_ofNat, Nat.mod_eq_of_lt (by omega)]
    rw [State.setRegsFrom, ih _ _ (by omega), State.getReg_setReg]
    by_cases h1 : q.toNat = i
    · rw [if_neg (by omega), if_pos (hq.2 h1), if_pos (by omega), h1, Nat.sub_self]; rfl
    · rw [if_neg (mt hq.1 h1)]
      by_cases h2 : i + 1 ≤ q.toNat ∧ q.toNat < i + 1 + bs.length
      · rw [if_pos h2, if_pos (by omega), show q.toNat - i = (q.toNat - (i + 1)) + 1 by omega]; rfl
      · rw [if_neg h2, if_neg (by omega)]

@[simp] theorem State.firstRegs_length (n : Nat) : (s.firstRegs n).length = n := by simp [State.firstRegs]

/-- The bytes a block store writes. -/
theorem State.firstRegs_getD (n k : Nat) (h : k < n) :
    (s.firstRegs n).getD k 0 = s.getReg (BitVec.ofNat 4 k) := by
  simp [State.firstRegs, List.getD_eq_getElem?_getD, h]

end Sys2Proof.Machine
end

