-- ==== Sys2Proof/Laws/Blocks.lean ====
section
/-! SUPPORT. The four instructions that reach memory through `I`, each as one condition on its addresses: what it answers
when its bytes are all in memory, and the fault otherwise. -/

namespace Sys2Proof.Machine

variable (s : State)

theorem execLdB_eq (x : Nibble) :
    execLdB x s = if s.I.toNat ≤ 4093 then .next (s.pokeBytes s.I.toNat (bcdDigits (s.getReg x)))
      else .fault (.memFault (max s.I.toNat 4096)) := by
  have hl : (bcdDigits (s.getReg x)).length = 3 := rfl
  rw [execLdB, State.writeBytes_eq, State.base]
  by_cases h : s.I.toNat ≤ 4093
  · rw [if_pos h, if_pos (Or.inr (by omega))]; rfl
  · rw [if_neg h, if_neg (by rintro (h' | h') <;> [simp [h'] at hl; omega])]; rfl

theorem execLdMemVx_eq (x : Nibble) :
    execLdMemVx x s = if s.I.toNat + x.toNat ≤ 4095 then .next (s.pokeBytes s.I.toNat (s.firstRegs (x.toNat + 1)))
      else .fault (.memFault (max s.I.toNat 4096)) := by
  have hl : (s.firstRegs (x.toNat + 1)).length = x.toNat + 1 := s.firstRegs_length _
  rw [execLdMemVx, State.writeBytes_eq, State.base, blockLength]
  by_cases h : s.I.toNat + x.toNat ≤ 4095
  · rw [if_pos h, if_pos (Or.inr (by omega))]; rfl
  · rw [if_neg h, if_neg (by rintro (h' | h') <;> [simp [h'] at hl; omega])]; rfl

theorem execLdVxMem_eq (x : Nibble) :
    execLdVxMem x s = if s.I.toNat + x.toNat ≤ 4095
      then .next (s.setRegsFrom 0 ((List.range (x.toNat + 1)).map fun k => s.peek (s.I.toNat + k)))
      else .fault (.memFault (max s.I.toNat 4096)) := by
  rw [execLdVxMem, State.readBytes_eq, State.base, blockLength]
  by_cases h : s.I.toNat + x.toNat ≤ 4095
  · rw [if_pos h, if_pos (Or.inr (by omega))]
  · rw [if_neg h, if_neg (by omega)]; rfl

/-- The bytes of the sprite a draw reads. -/
def spriteRows (n : Nibble) : List Byte := (List.range n.toNat).map fun k => s.peek (s.I.toNat + k)

theorem execDrw_eq (x y n : Nibble) :
    execDrw x y n s = if n = 0 ∨ s.I.toNat + n.toNat ≤ 4096
      then
        let g := drawRows (originRow (s.getReg y)) (originColumn (s.getReg x)) (spriteRows s n) (s.disp, false)
        .next (((s.setDisp g.1).setVF g.2).emit .redraw)
      else .fault (.memFault (max s.I.toNat 4096)) := by
  have hn : n = 0 ↔ n.toNat = 0 := by rw [← BitVec.toNat_inj]; rfl
  rw [execDrw, State.readBytes_eq, State.base]
  by_cases h : n.toNat = 0 ∨ s.I.toNat + n.toNat ≤ 4096
  · rw [if_pos h, if_pos (by rwa [hn])]; rfl
  · rw [if_neg h, if_neg (by rwa [hn])]; rfl

end Sys2Proof.Machine
end

