-- ==== Sys2Proof/Laws/Clock.lean ====
section
/-! SUPPORT. The clocks (`60_exceptions.md` R216 to R219) and the domains of the open frequencies (`00_scope.md` R6). -/

namespace Sys2Proof

theorem posRat_pos (p : Nat × Nat) : 0 < posRat p := by unfold posRat; positivity

theorem nonnegRat_nonneg (p : Nat × Nat) : 0 ≤ nonnegRat p := by unfold nonnegRat; positivity

namespace Machine

/-- The configuration at power-on is within the domains of R6, whatever the free values are. -/
theorem defaultConfig_wf : defaultConfig.WF :=
  ⟨posRat_pos _, posRat_pos _, by norm_num [defaultConfig, defaultTimerHz],
    le_add_of_nonneg_right (nonnegRat_nonneg _)⟩

/-- A tick never changes a clock's frequency. -/
theorem clockTick_freq (c : Clock) (now : Option Rat) : (clockTick c now).2.freq = c.freq := by
  unfold clockTick
  split
  · rfl
  · split <;> rfl

/-- A tick that does not fire leaves the clock unchanged (R217, R218). -/
theorem clockTick_idle {c c' : Clock} {now : Option Rat} (h : clockTick c now = (false, c')) : c' = c := by
  unfold clockTick at h
  split at h
  · cases h; rfl
  · split at h
    · simp at h
    · cases h; rfl

/-- A time that was read leaves no log entry, and a failed read one (R200, R218). -/
@[simp] theorem State.noteTimeRead_some (s : State) (now : Rat) : s.noteTimeRead (some now) = s := rfl
@[simp] theorem State.noteTimeRead_none (s : State) : s.noteTimeRead none = s.emit .timeReadFailed := rfl

/-- A time read changes the outputs at most. -/
theorem State.noteTimeRead_frame (s : State) (now : Option Rat) :
    s.noteTimeRead now = { s with out := (s.noteTimeRead now).out } := by
  cases now <;> rfl

/-- A frequency that was set is the one asked for or the floor, whichever is greater (R219). -/
theorem setFrequency_freq (floor : Rat) (c : Clock) (hz : Rat) : (setFrequency floor c hz).freq = max hz floor := by
  unfold setFrequency
  by_cases h : floor ≤ hz
  · simp [h]
  · simp [h, le_of_lt (not_le.1 h)]

/-- A frequency that was set is at least the floor (R219). -/
theorem setFrequency_floor (floor : Rat) (c : Clock) (hz : Rat) : floor ≤ (setFrequency floor c hz).freq := by
  rw [setFrequency_freq]; exact le_max_right _ _

end Machine

end Sys2Proof
end

