-- ==== Sys2Proof/Laws/Control.lean ====
section
/-! SUPPORT. The program counter's operations, the skip, and the stack (`10_state.md` R25, R29). -/

namespace Sys2Proof.Machine

variable (s : State)

@[simp] theorem State.advance_eq : s.advance = { s with pc := s.pc + 2 } := rfl
@[simp] theorem State.rewind_eq : s.rewind = { s with pc := s.pc - 2 } := rfl

/-- A skip adds 2 to `pc` or does nothing. -/
theorem State.skipIf_eq (b : Bool) : s.skipIf b = { s with pc := if b then s.pc + 2 else s.pc } := by
  cases b <;> rfl

/-- The rewind of the wait undoes the cycle's advance. -/
theorem State.rewind_advance : s.advance.rewind = s := by
  simp [State.advance, State.rewind, State.setPc]

/-- A push on a stack that is not full. -/
theorem State.push_ok (v : Word) (h : s.cfg.stackDepth ≠ some s.stack.length) :
    s.push v = .ok { s with stack := v :: s.stack } := by
  simp [State.push, h, State.setStack]

/-- A push on a full finite stack. -/
theorem State.push_full (v : Word) (h : s.cfg.stackDepth = some s.stack.length) :
    s.push v = .error .stackOverflow := by
  simp [State.push, h]

/-- What a pop answers. -/
theorem State.pop_cons {v : Word} {l : List Word} (h : s.stack = v :: l) :
    s.pop = some (v, { s with stack := l }) := by
  simp [State.pop, h, State.setStack]

theorem State.pop_nil (h : s.stack = []) : s.pop = none := by simp [State.pop, h]

end Sys2Proof.Machine
end

