-- ==== Sys2Proof/Laws/Decode.lean ====
section
/-! SUPPORT. The fields of a packed word are the fields packed, and the bytes of a word join to it again. -/

namespace Sys2Proof

/-- Two words agree when their values do, as numbers. -/
theorem Word.ext_toNat {v w : Word} (h : v.toNat = w.toNat) : v = w := BitVec.eq_of_toNat_eq h

/-- The fields of format `A` (R92). -/
theorem fields_packA (op : Nibble) (nnn : Addr12) :
    (fields (packA op nnn)).op = op ∧ (fields (packA op nnn)).nnn = nnn := by
  have h1 := op.isLt
  have h2 := nnn.isLt
  constructor <;>
    (apply BitVec.eq_of_toNat_eq
     simp only [fields, packA, BitVec.extractLsb'_toNat, BitVec.toNat_ofNat, Nat.shiftRight_eq_div_pow]
     omega)

/-- The fields of formats `XI` and `XM` (R92). -/
theorem fields_packXB (op x : Nibble) (b : Byte) :
    (fields (packXB op x b)).op = op ∧ (fields (packXB op x b)).x = x ∧ (fields (packXB op x b)).nn = b := by
  have h1 := op.isLt
  have h2 := x.isLt
  have h3 := b.isLt
  refine ⟨?_, ?_, ?_⟩ <;>
    (apply BitVec.eq_of_toNat_eq
     simp only [fields, packXB, BitVec.extractLsb'_toNat, BitVec.toNat_ofNat, Nat.shiftRight_eq_div_pow]
     omega)

/-- The low nibbles of formats `XI` and `XM` (R91: NN = Y * 16 + N). -/
theorem fields_packXB_low (op x : Nibble) (b : Byte) :
    (fields (packXB op x b)).y = b.extractLsb' 4 4 ∧ (fields (packXB op x b)).n = b.extractLsb' 0 4 := by
  have h1 := op.isLt
  have h2 := x.isLt
  have h3 := b.isLt
  refine ⟨?_, ?_⟩ <;>
    (apply BitVec.eq_of_toNat_eq
     simp only [fields, packXB, BitVec.extractLsb'_toNat, BitVec.toNat_ofNat, Nat.shiftRight_eq_div_pow]
     omega)

/-- The fields of formats `XY` and `XYN` (R92). -/
theorem fields_packXYN (op x y n : Nibble) :
    (fields (packXYN op x y n)).op = op ∧ (fields (packXYN op x y n)).x = x
      ∧ (fields (packXYN op x y n)).y = y ∧ (fields (packXYN op x y n)).n = n := by
  have h1 := op.isLt
  have h2 := x.isLt
  have h3 := y.isLt
  have h4 := n.isLt
  refine ⟨?_, ?_, ?_, ?_⟩ <;>
    (apply BitVec.eq_of_toNat_eq
     simp only [fields, packXYN, BitVec.extractLsb'_toNat, BitVec.toNat_ofNat, Nat.shiftRight_eq_div_pow]
     omega)

/-- The fields overlap as R91 says: the word is its opcode and NNN, NNN is X and NN, NN is Y and N. -/
theorem fields_overlap (w : Word) :
    w = packA (fields w).op (fields w).nnn ∧ w = packXB (fields w).op (fields w).x (fields w).nn
      ∧ w = packXYN (fields w).op (fields w).x (fields w).y (fields w).n := by
  have h := w.isLt
  refine ⟨?_, ?_, ?_⟩ <;>
    (apply BitVec.eq_of_toNat_eq
     simp only [fields, packA, packXB, packXYN, BitVec.extractLsb'_toNat, BitVec.toNat_ofNat,
       Nat.shiftRight_eq_div_pow]
     omega)

/-- A word's bytes, joined, are the word (R63). -/
theorem joinBytes_wordBytes (w : Word) : joinBytes (w.extractLsb' 8 8) (w.extractLsb' 0 8) = w := by
  have h := w.isLt
  apply BitVec.eq_of_toNat_eq
  simp only [joinBytes, BitVec.extractLsb'_toNat, BitVec.toNat_ofNat, Nat.shiftRight_eq_div_pow]
  omega

/-- The bytes of a word decode to what the word decodes to. -/
theorem decode_wordBytes (w : Word) (rest : List Byte) :
    decode (wordBytes w ++ rest)
      = match decodeWord w with
        | some i => .ok (i, rest)
        | none => .error (.unknownWord w) := by
  cases h : decodeWord w <;> simp [wordBytes, decode, joinBytes_wordBytes, h]

end Sys2Proof
end

