-- ==== Sys2Proof/Laws/Cycle.lean ====
section
/-! SUPPORT. What a step does, said once: FAULT is terminal, a step performs the next event, and an InstrStep is a fetch
fault, an instruction, or an unknown word (`40_cycle_and_dispatch.md` R120 to R125). -/

namespace Sys2Proof.Machine

variable (s : State)

@[simp] theorem State.settle_next (t : State) : s.settle (.next t) = t := rfl
@[simp] theorem State.settle_fault (c : Fault) : s.settle (.fault c) = s.setFault c := rfl

/-- In FAULT every event answers the cause the machine stopped with (R204). -/
theorem runEvent_fault {c : Fault} (h : s.fault = some c) (e : Event) : runEvent e s = .fault c := by
  simp [runEvent, h, raise]

/-- Outside FAULT an event is performed. -/
theorem runEvent_running (h : s.fault = none) (e : Event) : runEvent e s = performEvent e s := by
  simp [runEvent, h]

/-- A step outside FAULT with no event listed is an InstrStep. -/
theorem step_instrStep (hf : s.fault = none) (hi : s.inputs = []) : step s = instrStep s := by
  simp [step, nextEvent, hi, runEvent_running s hf, performEvent]

/-- A step outside FAULT with an event listed performs it. -/
theorem step_event {e : Event} {rest : List Event} (hf : s.fault = none) (hi : s.inputs = e :: rest) :
    step s = performEvent e (s.setInputs rest) := by
  simp [step, nextEvent, hi, runEvent, hf]

/-- The three ways an InstrStep goes: the fetch faults, the word is an instruction, or it is unknown (R121, R123). -/
theorem instrStep_cases :
    (4094 < s.pc.toNat ∧ instrStep s = .fault (.memFault (max s.pc.toNat 4096)))
    ∨ (s.pc.toNat ≤ 4094 ∧ ∃ w, w = joinBytes (s.peek s.pc.toNat) (s.peek (s.pc.toNat + 1))
        ∧ ((∃ i, decodeWord w = some i ∧ instrStep s = exec i s.advance)
          ∨ (decodeWord w = none ∧ instrStep s = .next (s.advance.emit (.diag w s.pc))))) := by
  unfold instrStep
  rw [State.readWord_eq]
  by_cases h : s.pc.toNat ≤ 4094
  · refine .inr ⟨h, _, rfl, ?_⟩
    rw [if_pos h]
    simp only [runWord]
    cases hd : decodeWord (joinBytes (s.peek s.pc.toNat) (s.peek (s.pc.toNat + 1))) with
    | none => exact .inr ⟨rfl, rfl⟩
    | some i => exact .inl ⟨i, rfl, rfl⟩
  · refine .inl ⟨by omega, ?_⟩
    rw [if_neg h]
    rfl

end Sys2Proof.Machine
end

