-- ==== Sys2Proof/Laws/Display.lean ====
section
/-! SUPPORT. What plotting one sprite pixel does to the display buffer and to the collision (`44_display.md` R182 to R184). -/

namespace Sys2Proof.Machine

/-- A cell of a grid. -/
theorem State.pixel_setDisp (s : State) (d : Grid) (r : Fin 32) (c : Fin 64) : (s.setDisp d).pixel r c = d[r][c] := rfl

/-- Every cell of the cleared grid is false. -/
@[simp] theorem clearGrid_get (r : Fin 32) (c : Fin 64) : clearGrid[r][c] = false := by
  simp [clearGrid]

/-- A pixel outside the grid is clipped: it changes no cell and collides with none (R183, R184). -/
theorem plotPixel_clipped {yy xx : Nat} (h : ¬(yy < 32 ∧ xx < 64)) (g : Grid × Bool) : plotPixel yy xx g = g := by
  simp [plotPixel, h]

/-- A pixel inside the grid inverts its own cell and no other (R182). -/
theorem plotPixel_cell {yy xx : Nat} (h : yy < 32 ∧ xx < 64) (g : Grid × Bool) (r : Fin 32) (c : Fin 64) :
    (plotPixel yy xx g).1[r][c] = if r.val = yy ∧ c.val = xx then !g.1[r][c] else g.1[r][c] := by
  obtain ⟨r, hr⟩ := r
  obtain ⟨c, hc⟩ := c
  simp only [plotPixel, dif_pos h, Fin.getElem_fin, Vector.getElem_set]
  by_cases h1 : yy = r
  · subst h1
    by_cases h2 : xx = c
    · subst h2; simp
    · simp [h2, Ne.symm h2]
  · simp [h1, Ne.symm h1]

/-- A pixel inside the grid collides exactly when its cell was set (R184). -/
theorem plotPixel_collision {yy xx : Nat} (h : yy < 32 ∧ xx < 64) (g : Grid × Bool) :
    (plotPixel yy xx g).2 = (g.2 || g.1[yy][xx]) := by
  simp [plotPixel, h]

end Sys2Proof.Machine
end

