-- ==== Sys2Proof/Laws/Keys.lean ====
section
/-! SUPPORT. The key latch: a press or release changes its own key, and what `anyPressed` answers (`10_state.md` R32). -/

namespace Sys2Proof.Machine

variable (s : State)

/-- The latch after a key is set: its own key, and every other as before (R226). -/
theorem State.keyDown_setKey (j k : Nibble) (b : Bool) :
    (s.setKey k b).keyDown j = if j = k then b else s.keyDown j := by
  simp only [State.keyDown, State.setKey, Vector.getElem_set, BitVec.toNat_inj, eq_comm]

/-- No key is found exactly when none is down. -/
theorem State.lowestKey_eq_none : s.lowestKey = none ↔ ∀ k, s.keyDown k = false := by
  simp only [State.lowestKey, List.find?_eq_none, List.mem_map, List.mem_range]
  constructor
  · intro h k
    have := h k ⟨k.toNat, k.isLt, by simp⟩
    simpa using this
  · rintro h _ ⟨_, _, rfl⟩
    simp [h]

/-- A key found is down. -/
theorem State.lowestKey_down {k : Nibble} (h : s.lowestKey = some k) : s.keyDown k = true :=
  List.find?_some h

/-- No key below the one found is down: the lowest index wins (R32, `45_keypad_timers.md` R192). -/
theorem State.lowestKey_least {k : Nibble} (h : s.lowestKey = some k) (j : Nibble) (hj : j.toNat < k.toNat) :
    s.keyDown j = false := by
  rw [State.lowestKey, List.find?_eq_some_iff_getElem] at h
  obtain ⟨_, i, hi, hk, hlow⟩ := h
  have hi16 : i < 16 := by simpa using hi
  have hki : k.toNat = i := by
    rw [← hk]; simp [Nat.mod_eq_of_lt hi16]
  have := hlow j.toNat (by omega)
  simpa using this

/-- The key a byte names, or the fault that there is none (R193). -/
theorem keyIndex_eq (v : Byte) :
    keyIndex v = if v.toNat ≤ 15 then .ok (BitVec.ofNat 4 v.toNat) else .error (.keyIndexFault v.toNat) := by
  unfold keyIndex
  by_cases h : v.toNat ≤ 15
  · rw [if_neg (by omega), if_pos h]
  · rw [if_pos (by omega), if_neg h]

end Sys2Proof.Machine
end

