-- ==== Sys2Proof/Laws/PerInstr.lean ====
section
/-! SUPPORT. Per instruction: the word an instruction encodes to fits its own row of the opcode table and no other row
(`30_encoding.md` R94, R96). -/

namespace Sys2Proof.Laws.EncodingFitsRow

/-- A row of the table is the instruction's own exactly when the instruction's word matches the row's pattern. -/
def Statement (i : Instr) : Prop := ∀ r ∈ opcodeTable, rowMatches r (encode i) = decide (r.mnemonic = mnemonic i)

theorem cls : Statement .cls := by
  unfold Statement; decide

theorem ret : Statement .ret := by
  unfold Statement; decide

theorem jp (nnn : Addr12) : Statement (.jp nnn) := by
  simp [Statement, opcodeTable, rowMatches, nibbleFits, encode, mnemonic, fields_packA]

theorem call (nnn : Addr12) : Statement (.call nnn) := by
  simp [Statement, opcodeTable, rowMatches, nibbleFits, encode, mnemonic, fields_packA]

theorem seNN (x : Nibble) (nn : Byte) : Statement (.seNN x nn) := by
  simp [Statement, opcodeTable, rowMatches, nibbleFits, encode, mnemonic, fields_packXB, fields_packXB_low]

theorem sneNN (x : Nibble) (nn : Byte) : Statement (.sneNN x nn) := by
  simp [Statement, opcodeTable, rowMatches, nibbleFits, encode, mnemonic, fields_packXB, fields_packXB_low]

theorem seVY (x : Nibble) (y : Nibble) : Statement (.seVY x y) := by
  simp [Statement, opcodeTable, rowMatches, nibbleFits, encode, mnemonic, fields_packXYN]

theorem ldNN (x : Nibble) (nn : Byte) : Statement (.ldNN x nn) := by
  simp [Statement, opcodeTable, rowMatches, nibbleFits, encode, mnemonic, fields_packXB, fields_packXB_low]

theorem addNN (x : Nibble) (nn : Byte) : Statement (.addNN x nn) := by
  simp [Statement, opcodeTable, rowMatches, nibbleFits, encode, mnemonic, fields_packXB, fields_packXB_low]

theorem ldVY (x : Nibble) (y : Nibble) : Statement (.ldVY x y) := by
  simp [Statement, opcodeTable, rowMatches, nibbleFits, encode, mnemonic, fields_packXYN]

theorem orVY (x : Nibble) (y : Nibble) : Statement (.orVY x y) := by
  simp [Statement, opcodeTable, rowMatches, nibbleFits, encode, mnemonic, fields_packXYN]

theorem andVY (x : Nibble) (y : Nibble) : Statement (.andVY x y) := by
  simp [Statement, opcodeTable, rowMatches, nibbleFits, encode, mnemonic, fields_packXYN]

theorem xorVY (x : Nibble) (y : Nibble) : Statement (.xorVY x y) := by
  simp [Statement, opcodeTable, rowMatches, nibbleFits, encode, mnemonic, fields_packXYN]

theorem addVY (x : Nibble) (y : Nibble) : Statement (.addVY x y) := by
  simp [Statement, opcodeTable, rowMatches, nibbleFits, encode, mnemonic, fields_packXYN]

theorem sub (x : Nibble) (y : Nibble) : Statement (.sub x y) := by
  simp [Statement, opcodeTable, rowMatches, nibbleFits, encode, mnemonic, fields_packXYN]

theorem shr (x : Nibble) (y : Nibble) : Statement (.shr x y) := by
  simp [Statement, opcodeTable, rowMatches, nibbleFits, encode, mnemonic, fields_packXYN]

theorem subn (x : Nibble) (y : Nibble) : Statement (.subn x y) := by
  simp [Statement, opcodeTable, rowMatches, nibbleFits, encode, mnemonic, fields_packXYN]

theorem shl (x : Nibble) (y : Nibble) : Statement (.shl x y) := by
  simp [Statement, opcodeTable, rowMatches, nibbleFits, encode, mnemonic, fields_packXYN]

theorem sneVY (x : Nibble) (y : Nibble) : Statement (.sneVY x y) := by
  simp [Statement, opcodeTable, rowMatches, nibbleFits, encode, mnemonic, fields_packXYN]

theorem ldI (nnn : Addr12) : Statement (.ldI nnn) := by
  simp [Statement, opcodeTable, rowMatches, nibbleFits, encode, mnemonic, fields_packA]

theorem jpV0 (nnn : Addr12) : Statement (.jpV0 nnn) := by
  simp [Statement, opcodeTable, rowMatches, nibbleFits, encode, mnemonic, fields_packA]

theorem rnd (x : Nibble) (nn : Byte) : Statement (.rnd x nn) := by
  simp [Statement, opcodeTable, rowMatches, nibbleFits, encode, mnemonic, fields_packXB, fields_packXB_low]

theorem drw (x : Nibble) (y : Nibble) (n : Nibble) : Statement (.drw x y n) := by
  simp [Statement, opcodeTable, rowMatches, nibbleFits, encode, mnemonic, fields_packXYN]

theorem skp (x : Nibble) : Statement (.skp x) := by
  simp [Statement, opcodeTable, rowMatches, nibbleFits, encode, mnemonic, fields_packXB, fields_packXB_low]

theorem sknp (x : Nibble) : Statement (.sknp x) := by
  simp [Statement, opcodeTable, rowMatches, nibbleFits, encode, mnemonic, fields_packXB, fields_packXB_low]

theorem ldVxDT (x : Nibble) : Statement (.ldVxDT x) := by
  simp [Statement, opcodeTable, rowMatches, nibbleFits, encode, mnemonic, fields_packXB, fields_packXB_low]

theorem ldVxK (x : Nibble) : Statement (.ldVxK x) := by
  simp [Statement, opcodeTable, rowMatches, nibbleFits, encode, mnemonic, fields_packXB, fields_packXB_low]

theorem ldDTVx (x : Nibble) : Statement (.ldDTVx x) := by
  simp [Statement, opcodeTable, rowMatches, nibbleFits, encode, mnemonic, fields_packXB, fields_packXB_low]

theorem ldSTVx (x : Nibble) : Statement (.ldSTVx x) := by
  simp [Statement, opcodeTable, rowMatches, nibbleFits, encode, mnemonic, fields_packXB, fields_packXB_low]

theorem addI (x : Nibble) : Statement (.addI x) := by
  simp [Statement, opcodeTable, rowMatches, nibbleFits, encode, mnemonic, fields_packXB, fields_packXB_low]

theorem ldF (x : Nibble) : Statement (.ldF x) := by
  simp [Statement, opcodeTable, rowMatches, nibbleFits, encode, mnemonic, fields_packXB, fields_packXB_low]

theorem ldB (x : Nibble) : Statement (.ldB x) := by
  simp [Statement, opcodeTable, rowMatches, nibbleFits, encode, mnemonic, fields_packXB, fields_packXB_low]

theorem ldMemVx (x : Nibble) : Statement (.ldMemVx x) := by
  simp [Statement, opcodeTable, rowMatches, nibbleFits, encode, mnemonic, fields_packXB, fields_packXB_low]

theorem ldVxMem (x : Nibble) : Statement (.ldVxMem x) := by
  simp [Statement, opcodeTable, rowMatches, nibbleFits, encode, mnemonic, fields_packXB, fields_packXB_low]

end Sys2Proof.Laws.EncodingFitsRow
end

