-- ==== Sys2Proof/Tests/Slice0.lean ====
section
/-! SUPPORT. The package's own tests. Expected results come from the encodings of `30_encoding.md` R96 and from the test
vectors of `95_test_vectors.md`, cited by their ids; the last part holds a witness for every obligation with hypotheses. -/

namespace Sys2Proof.Tests

open Sys2Proof Sys2Proof.Machine

/-! ## Helpers -/

/-- Power-on with numbers for the frequencies the spec leaves open. -/
def sample : State :=
  { State.reset with
    cfg := { defaultConfig with cpuHz := 500, freqStep := 10, freqFloor := 1 }
    clkCpu := { freq := 500, last := 0 } }

/-- Registers set from a list of pairs. -/
def withRegs (s : State) : List (Nibble × Byte) → State
  | [] => s
  | (r, v) :: rest => withRegs (s.setReg r v) rest

/-- One step that fetches the given word at 0x200. -/
def run (w : Nat) (s : State) : Result State := step (s.withFetchWord 16 w)

/-- The outcome is a next state for which `p` holds. -/
def ends (r : Result State) (p : State → Bool) : Bool :=
  match r with
  | .next t => p t
  | .fault _ => false
  | .refused _ => false

/-- The outcome is the given fault. -/
def stops (r : Result State) (c : Fault) : Bool :=
  match r with
  | .next _ => false
  | .fault d => d == c
  | .refused _ => false

/-- The listed cells, as pairs of a row and a column, hold the given value. -/
def cells (t : State) (b : Bool) (l : List (Fin 32 × Fin 64)) : Bool := l.all fun p => t.pixel p.1 p.2 == b

/-! ## Decoding: words written out from the pattern column of R96, one for every constructor -/

theorem test_decode_control :
    decodeWord 0x00EE = some .ret ∧ decodeWord 0x1ABC = some (.jp 0xABC) ∧ decodeWord 0x2ABC = some (.call 0xABC)
    ∧ decodeWord 0x3542 = some (.seNN 5 0x42) ∧ decodeWord 0x4542 = some (.sneNN 5 0x42)
    ∧ decodeWord 0x5120 = some (.seVY 1 2) ∧ decodeWord 0x9120 = some (.sneVY 1 2)
    ∧ decodeWord 0xBFFF = some (.jpV0 0xFFF) := by decide

theorem test_decode_load_alu :
    decodeWord 0x60EA = some (.ldNN 0 0xEA) ∧ decodeWord 0x730A = some (.addNN 3 0x0A)
    ∧ decodeWord 0x8EF0 = some (.ldVY 14 15) ∧ decodeWord 0x8121 = some (.orVY 1 2)
    ∧ decodeWord 0x8122 = some (.andVY 1 2) ∧ decodeWord 0x8123 = some (.xorVY 1 2)
    ∧ decodeWord 0x8AB4 = some (.addVY 10 11) ∧ decodeWord 0x8125 = some (.sub 1 2)
    ∧ decodeWord 0x8236 = some (.shr 2 3) ∧ decodeWord 0x8127 = some (.subn 1 2)
    ∧ decodeWord 0x823E = some (.shl 2 3) ∧ decodeWord 0xC13C = some (.rnd 1 0x3C) := by decide

theorem test_decode_index_memory :
    decodeWord 0xA300 = some (.ldI 0x300) ∧ decodeWord 0xF21E = some (.addI 2) ∧ decodeWord 0xF729 = some (.ldF 7)
    ∧ decodeWord 0xF033 = some (.ldB 0) ∧ decodeWord 0xF255 = some (.ldMemVx 2)
    ∧ decodeWord 0xF065 = some (.ldVxMem 0) := by decide

theorem test_decode_display_keypad_timers :
    decodeWord 0x00E0 = some .cls ∧ decodeWord 0xD125 = some (.drw 1 2 5) ∧ decodeWord 0xE19E = some (.skp 1)
    ∧ decodeWord 0xE1A1 = some (.sknp 1) ∧ decodeWord 0xF407 = some (.ldVxDT 4) ∧ decodeWord 0xF30A = some (.ldVxK 3)
    ∧ decodeWord 0xF315 = some (.ldDTVx 3) ∧ decodeWord 0xF018 = some (.ldSTVx 0) := by decide

/-- V-DEC1: the fields of 0x8AB4. -/
theorem test_fields : fields 0x8AB4 = ⟨0x8, 0xA, 0xB, 0x4, 0xB4, 0xAB4⟩ := by decide

/-- V-DEC5 to V-DEC9: unknown words, and bytes too few for a word. -/
theorem test_decode_refuses :
    (([0x0000, 0x00E1, 0x00FF, 0x0123, 0x5AB1, 0x9AB8, 0x8AB8, 0x8ABD, 0x8ABF, 0xE19F, 0xE1A2, 0xE100, 0xF1FF,
      0xF175, 0xF185, 0xF130] : List Word).all fun w => decodeWord w == none) = true
    ∧ decode [0x5A, 0xB1] = .error (.unknownWord 0x5AB1) ∧ decode [0x00] = .error .truncated
    ∧ decode [] = .error .truncated := by decide

/-- The encoder on words written out from R96, one for each format of R92. -/
theorem test_encode :
    encode .cls = 0x00E0 ∧ encode (.jp 0xABC) = 0x1ABC ∧ encode (.seNN 5 0x42) = 0x3542 ∧ encode (.sub 1 2) = 0x8125
    ∧ encode (.drw 1 2 5) = 0xD125 ∧ encode (.skp 4) = 0xE49E ∧ encodeBytes (.ldVxMem 0) = [0xF0, 0x65] := by decide

theorem test_decodeTableWord :
    decodeTableWord 16 0xD125 = some (.drw 1 2 5) ∧ decodeTableWord 16 0x5AB1 = none := by decide

/-! ## Well-formedness: every check passes a good term and refuses a bad one -/

theorem test_config_wf : sample.cfg.WF := by decide

theorem test_config_wf_refuses_floor : ¬ ({ sample.cfg with freqFloor := 0 } : Config).WF := by decide

theorem test_config_wf_refuses_step : ¬ ({ sample.cfg with freqStep := -1 } : Config).WF := by decide

theorem test_config_wf_refuses_timer : ¬ ({ sample.cfg with timerHz := 0 } : Config).WF := by decide

theorem test_config_wf_refuses_cpu : ¬ ({ sample.cfg with cpuHz := 1 / 2 } : Config).WF := by decide +kernel

theorem test_imageFits :
    imageFits (List.replicate 3584 0) = true ∧ imageFits (List.replicate 3585 0) = false := by
  simp [imageFits, -List.reduceReplicate]

/-- Memory refused: addresses falling, an address twice, an address past the last one, an entry that lists the power-on
content (0 at 0x200, the font's 0xF0 at 0x050). -/
theorem test_memory_wf :
    Memory.wf defaultFont [(0x050, 1), (0x200, 2), (4095, 3)] = true
    ∧ Memory.wf defaultFont [(0x201, 1), (0x200, 2)] = false
    ∧ Memory.wf defaultFont [(0x200, 1), (0x200, 2)] = false
    ∧ Memory.wf defaultFont [(4096, 1)] = false
    ∧ Memory.wf defaultFont [(0x200, 0)] = false
    ∧ Memory.wf defaultFont [(0x050, 0xF0)] = false := by decide

/-! ## Memory and registers -/

/-- S1 and S2, and the last address. -/
theorem test_memory :
    (State.reset.poke 0x0ABC 0x5A).readByte 0x0ABC = .ok 0x5A
    ∧ (State.reset.pokeBytes 0x200 [0x12, 0x34]).readWord 0x200 = .ok 0x1234
    ∧ State.reset.readByte 4095 = .ok 0 ∧ State.reset.readByte 4096 = .error (.memFault 4096) := by decide

/-- Writing the power-on content back leaves no entry. -/
theorem test_memory_canonical : ((State.reset.poke 0x050 1).poke 0x050 0xF0).mem = [] := by decide

/-- R23, R202: the register contract refuses an index above 15. -/
theorem test_register_contract :
    State.reset.regGet 15 = .ok 0 ∧ State.reset.regGet 16 = .error (.regIndexFault 16)
    ∧ (State.reset.regSet 16 1 = .error (.regIndexFault 16)) := by
  refine ⟨by decide, by decide, rfl⟩

/-- V-PON1. -/
theorem test_power_on :
    State.reset.pc = 0x200 ∧ State.reset.peek 0x04F = 0 ∧ State.reset.peek 0x050 = 0xF0 ∧ State.reset.peek 0x09F = 0x80
    ∧ State.reset.peek 0x0A0 = 0 ∧ State.reset.fault = none := by decide

/-! ## The cycle -/

/-- V-CYC2: a fetch at an odd address. -/
theorem test_odd_fetch :
    ends (step (({ State.reset with pc := 0x201 } : State).pokeBytes 0x201 [0x6A, 0x07]))
      (fun t => t.getReg 10 == 7 && t.pc == 0x203) = true := by decide

/-- V-CYC3, V-CYC4 and V-CYC5: the end of memory. -/
theorem test_fetch_faults :
    stops (step { State.reset with pc := 0x1000 }) (.memFault 0x1000) = true
    ∧ stops (step { State.reset with pc := 0xFFF }) (.memFault 0x1000) = true
    ∧ stops (step { State.reset with pc := 0x10FE }) (.memFault 0x10FE) = true := by decide

/-- V-UNK1. -/
theorem test_unknown_word :
    ends (run 0x5121 State.reset) (fun t => t.pc == 0x202 && t.out == [.diag 0x5121 0x200]) = true := by decide

/-! ## Control transfer -/

/-- V-JP1. -/
theorem test_jp : ends (run 0x1ABC State.reset) (fun t => t.pc == 0x0ABC) = true := by decide

/-- V-CALL1 and V-CALL3. -/
theorem test_call :
    ends (run 0x2ABC State.reset) (fun t => t.pc == 0x0ABC && t.stack == [0x0202]) = true
    ∧ stops (run 0x2ABC { State.reset with
        stack := List.replicate 16 0x202, cfg := { defaultConfig with stackDepth := some 16 } }) .stackOverflow = true := by
  decide

/-- V-RET1 (the newest entry first) and V-RET2. -/
theorem test_ret :
    ends (run 0x00EE { State.reset with stack := [0x0302, 0x0202] })
      (fun t => t.pc == 0x0302 && t.stack == [0x0202]) = true
    ∧ ends (run 0x00EE State.reset) (fun t => t.pc == 0x0202 && t.stack == [] && t.out == []) = true := by decide

/-- V-B2 and V-B3. -/
theorem test_jpV0 :
    ends (run 0xBFFF (withRegs State.reset [(0, 0xFF)])) (fun t => t.pc == 0x10FE) = true
    ∧ ends (run 0xB300 (withRegs State.reset [(0, 4), (3, 0x50)])) (fun t => t.pc == 0x0304) = true := by decide

/-- V-SE1, V-SE2. -/
theorem test_seNN :
    ends (run 0x3542 (withRegs State.reset [(5, 0x42)])) (fun t => t.pc == 0x204) = true
    ∧ ends (run 0x3543 (withRegs State.reset [(5, 0x42)])) (fun t => t.pc == 0x202) = true := by decide

/-- V-SNE1, V-SNE2. -/
theorem test_sneNN :
    ends (run 0x4542 (withRegs State.reset [(5, 0x42)])) (fun t => t.pc == 0x202) = true
    ∧ ends (run 0x4543 (withRegs State.reset [(5, 0x42)])) (fun t => t.pc == 0x204) = true := by decide

/-- V-SEV1, V-SEV2. -/
theorem test_seVY :
    ends (run 0x5120 (withRegs State.reset [(1, 3), (2, 3)])) (fun t => t.pc == 0x204) = true
    ∧ ends (run 0x5120 (withRegs State.reset [(1, 3), (2, 4)])) (fun t => t.pc == 0x202) = true := by decide

/-- V-SNEV1, V-SNEV2. -/
theorem test_sneVY :
    ends (run 0x9120 (withRegs State.reset [(1, 3), (2, 4)])) (fun t => t.pc == 0x204) = true
    ∧ ends (run 0x9120 (withRegs State.reset [(1, 3), (2, 3)])) (fun t => t.pc == 0x202) = true := by decide

/-! ## Load, arithmetic, logic, shift, random -/

/-- V-LD2. -/
theorem test_ldNN : ends (run 0x6F55 State.reset) (fun t => t.getReg 15 == 0x55) = true := by decide

/-- S4, V-ADDI1. -/
theorem test_addNN :
    ends (run 0x730A (withRegs State.reset [(3, 0xFA), (15, 1)])) (fun t => t.getReg 3 == 4 && t.getReg 15 == 1) = true := by
  decide

/-- V-MOV2. -/
theorem test_ldVY : ends (run 0x8EF0 (withRegs State.reset [(15, 1)])) (fun t => t.getReg 14 == 1) = true := by
  decide

/-- V-OR1. -/
theorem test_orVY :
    ends (run 0x8121 (withRegs State.reset [(1, 0xAA), (2, 0x55), (15, 1)]))
      (fun t => t.getReg 1 == 0xFF && t.getReg 15 == 1) = true := by decide

/-- V-AND1. -/
theorem test_andVY :
    ends (run 0x8122 (withRegs State.reset [(1, 0xAA), (2, 0x0F), (15, 1)]))
      (fun t => t.getReg 1 == 0x0A && t.getReg 15 == 1) = true := by decide

/-- V-XOR1. -/
theorem test_xorVY :
    ends (run 0x8123 (withRegs State.reset [(1, 0xAA), (2, 0xFF), (15, 1)]))
      (fun t => t.getReg 1 == 0x55 && t.getReg 15 == 1) = true := by decide

/-- V-ADD5 and V-ADD7. -/
theorem test_addVY :
    ends (run 0x8F14 (withRegs State.reset [(15, 0x90), (1, 0x90)])) (fun t => t.getReg 15 == 1) = true
    ∧ ends (run 0x80F4 (withRegs State.reset [(0, 0x10), (15, 1)]))
      (fun t => t.getReg 0 == 0x11 && t.getReg 15 == 0) = true := by decide

/-- S5, V-SUB2 and V-SUB3. -/
theorem test_sub :
    ends (run 0x8125 (withRegs State.reset [(1, 5), (2, 10)]))
      (fun t => t.getReg 1 == 251 && t.getReg 2 == 10 && t.getReg 15 == 0) = true
    ∧ ends (run 0x8125 (withRegs State.reset [(1, 7), (2, 7)]))
      (fun t => t.getReg 1 == 0 && t.getReg 15 == 1) = true := by decide

/-- V-SHR6 and V-SHR7: the two values of SHIFT_SRC. -/
theorem test_shr :
    ends (run 0x8236 { withRegs State.reset [(2, 0xFF), (3, 4)] with cfg := { defaultConfig with shiftSrc := .vy } })
      (fun t => t.getReg 2 == 2 && t.getReg 3 == 4 && t.getReg 15 == 0) = true
    ∧ ends (run 0x8236 (withRegs State.reset [(2, 0xFF), (3, 4)]))
      (fun t => t.getReg 2 == 0x7F && t.getReg 3 == 4 && t.getReg 15 == 1) = true := by decide

/-- V-SUBN1 and V-SUBN2. -/
theorem test_subn :
    ends (run 0x8127 (withRegs State.reset [(1, 5), (2, 10)])) (fun t => t.getReg 1 == 5 && t.getReg 15 == 1) = true
    ∧ ends (run 0x8127 (withRegs State.reset [(1, 10), (2, 5)]))
      (fun t => t.getReg 1 == 251 && t.getReg 15 == 0) = true := by decide

/-- V-SHL3 and V-SHL4. -/
theorem test_shl :
    ends (run 0x823E (withRegs State.reset [(2, 0x80)])) (fun t => t.getReg 2 == 0 && t.getReg 15 == 1) = true
    ∧ ends (run 0x823E { withRegs State.reset [(2, 0), (3, 0x81)] with cfg := { defaultConfig with shiftSrc := .vy } })
      (fun t => t.getReg 2 == 2 && t.getReg 3 == 0x81 && t.getReg 15 == 1) = true := by decide

/-- V-RND1, and the next execution draws anew. -/
theorem test_rnd : ∃ t, execRnd 1 0x00 State.reset = .next t ∧ t.getReg 1 = 0x00 ∧ t.draws = 1 :=
  ⟨_, rfl, by simp [State.getReg, State.setReg], rfl⟩

/-! ## Index register and memory -/

/-- V-LDI1's rule R171 at the greatest address. -/
theorem test_ldI : ends (run 0xAFFF State.reset) (fun t => t.I == 0x0FFF) = true := by decide

/-- R172: the sum wraps at 16 bits and VF is not written. -/
theorem test_addI :
    ends (run 0xF21E { withRegs State.reset [(2, 2), (15, 7)] with I := 0xFFFF })
      (fun t => t.I == 1 && t.getReg 15 == 7) = true := by decide

/-- V-FONT2 and V-FONT4. -/
theorem test_ldF :
    ends (run 0xF029 (withRegs State.reset [(0, 0x0F)])) (fun t => t.I == 0x009B) = true
    ∧ ends (run 0xF029 (withRegs State.reset [(0, 0x1A)])) (fun t => t.I == 0x0082) = true := by decide

/-- V-BCD1 and V-BCD8. -/
theorem test_ldB :
    ends (run 0xF033 { withRegs State.reset [(0, 234)] with I := 0x300 })
      (fun t => (List.range 3).map (fun k => t.peek (0x300 + k)) == [2, 3, 4] && t.I == 0x300) = true
    ∧ stops (run 0xF033 { State.reset with I := 0xFFE }) (.memFault 0x1000) = true := by decide

/-- V-ST1 and V-ST3. -/
theorem test_ldMemVx :
    ends (run 0xF255 { (withRegs State.reset [(0, 1), (1, 2), (2, 3), (3, 9)]).poke 0x403 0x77 with I := 0x400 })
      (fun t => (List.range 4).map (fun k => t.peek (0x400 + k)) == [1, 2, 3, 0x77] && t.I == 0x400) = true
    ∧ stops (run 0xF155 { State.reset with I := 0xFFF }) (.memFault 0x1000) = true := by decide

/-- V-LDM1 and V-LDM3. -/
theorem test_ldVxMem :
    ends (run 0xF265 { (withRegs State.reset [(3, 9)]).pokeBytes 0x300 [2, 3, 4] with I := 0x300 })
      (fun t => t.firstRegs 4 == [2, 3, 4, 9] && t.I == 0x300) = true
    ∧ stops (run 0xFF65 { State.reset with I := 0xFF1 }) (.memFault 0x1000) = true := by decide

/-! ## Display -/

/-- V-CLS1. -/
theorem test_cls :
    ends (run 0x00E0 ({ State.reset with disp := Vector.replicate 32 (Vector.replicate 64 true) } : State))
      (fun t => cells t false [(0, 0), (5, 5), (0, 63), (31, 0), (31, 63)] && t.out == []) = true := by decide

/-- V-D1: the origin wraps. -/
theorem test_drw_wraps :
    ends (run 0xD011 { (withRegs State.reset [(0, 0x46), (1, 0x21)]).poke 0x300 0x80 with I := 0x300 })
      (fun t => cells t true [(1, 6)] && cells t false [(0, 6), (2, 6), (1, 5), (1, 7), (6, 1), (1, 13)]
        && t.getReg 15 == 0 && t.out == [.redraw]) = true := by decide

/-- V-D12 (the rest is clipped) and V-D13 (the byte of a clipped row is read). -/
theorem test_drw_clips :
    ends (run 0xD012 { (withRegs State.reset [(0, 255), (1, 255)]).pokeBytes 0x300 [0xFF, 0xFF] with I := 0x300 })
      (fun t => cells t true [(31, 63)] && cells t false [(31, 62), (30, 63), (31, 0), (0, 63), (0, 0)]) = true
    ∧ stops (run 0xD014 { withRegs State.reset [(1, 30)] with I := 0xFFD }) (.memFault 0x1000) = true := by
  decide

/-! ## Keypad and timers -/

/-- V-SKP4 and V-SKP3. -/
theorem test_skp :
    ends (run 0xE19E ((withRegs State.reset [(1, 0x0F)]).setKey 15 true)) (fun t => t.pc == 0x204) = true
    ∧ stops (run 0xE19E (withRegs State.reset [(1, 0x10)])) (.keyIndexFault 16) = true := by decide

/-- V-SKNP1 and V-SKNP2. -/
theorem test_sknp :
    ends (run 0xE1A1 (withRegs State.reset [(1, 3)])) (fun t => t.pc == 0x204) = true
    ∧ ends (run 0xE1A1 ((withRegs State.reset [(1, 3)]).setKey 3 true)) (fun t => t.pc == 0x202) = true := by
  decide

/-- V-KEY1 and V-KEY2. -/
theorem test_ldVxK :
    ends (run 0xF30A State.reset) (fun t => t.pc == 0x200 && t.getReg 3 == 0) = true
    ∧ ends (run 0xF30A ((State.reset.setKey 7 true).setKey 2 true)) (fun t => t.pc == 0x202 && t.getReg 3 == 2) = true := by
  decide

/-- V-DT1, V-DT3 and V-ST-T1. -/
theorem test_timer_instructions :
    ends (run 0xF407 { State.reset with DT := 0x3C }) (fun t => t.getReg 4 == 0x3C) = true
    ∧ ends (run 0xF315 (withRegs State.reset [(3, 0xFF)])) (fun t => t.DT == 255 && t.ST == 0) = true
    ∧ ends (run 0xF018 (withRegs State.reset [(0, 0x1E)])) (fun t => t.ST == 0x1E && t.soundOn && t.DT == 0) = true := by
  decide

/-! ## Events -/

/-- V-TICK1, V-TICK3 and V-TICK4, each as the event the host has scheduled. -/
theorem test_ticks :
    ends (step { State.reset with DT := 2, inputs := [.delayTick] }) (fun t => t.DT == 1 && t.inputs == []) = true
    ∧ ends (step { State.reset with inputs := [.delayTick] }) (fun t => t.DT == 0) = true
    ∧ ends (step { State.reset with ST := 1, DT := 9, inputs := [.soundTick] })
        (fun t => t.ST == 0 && t.DT == 9 && !t.soundOn) = true := by decide

/-- V-PRESS1 and V-REL1. -/
theorem test_keys :
    ends (step { State.reset with inputs := [.press 5] }) (fun t => t.keyDown 5 && !t.keyDown 6) = true
    ∧ ends (step { (State.reset.setKey 5 true).setKey 6 true with inputs := [.release 5] })
        (fun t => !t.keyDown 5 && t.keyDown 6) = true := by decide

/-- V-CLK2, V-CLK3, V-CLK4 and V-CLK6. -/
theorem test_clock :
    clockTick ⟨1000, 0⟩ (some (1 / 1000)) = (true, ⟨1000, 1 / 1000⟩)
    ∧ clockTick ⟨1000, 1 / 1000⟩ (some (35 / 10000)) = (true, ⟨1000, 35 / 10000⟩)
    ∧ clockTick ⟨60, 0⟩ (some (16 / 1000)) = (false, ⟨60, 0⟩)
    ∧ clockTick ⟨60, 0⟩ none = (false, ⟨60, 0⟩) := by decide +kernel

/-- V-CLK6 with R200: a poll that cannot read the time is logged and neither steps nor ticks. -/
theorem test_time_read_failure :
    ends (step { State.reset with inputs := [.pollCpu none] })
      (fun t => t.pc == 0x200 && t.out == [.timeReadFailed]) = true
    ∧ ends (step { State.reset with DT := 2, inputs := [.pollDelay none] })
      (fun t => t.DT == 2 && t.out == [.timeReadFailed]) = true := by decide

/-- V-FRQ2 and V-FRQ3. -/
theorem test_frequency :
    (freqDown { sample with clkCpu := ⟨1, 0⟩ }).clkCpu.freq = 1 ∧ (setFrequency 1 ⟨500, 3⟩ 0) = ⟨1, 3⟩
    ∧ (setFrequency 1 ⟨500, 3⟩ (-5)) = ⟨1, 3⟩ := by decide +kernel

/-- V-RST1's and V-RST2's rule R243, R204. -/
theorem test_warm_reset :
    ends (step { withRegs State.reset [(1, 9)] with pc := 0x3A6, stack := [0x206], DT := 7, inputs := [.warmReset] })
      (fun t => t.pc == 0x200 && t.getReg 1 == 9 && t.stack == [0x206] && t.DT == 7) = true
    ∧ stops (step { State.reset with fault := some (.memFault 4096), inputs := [.warmReset] }) (.memFault 4096) = true := by
  decide

/-- V-LOAD3: a shorter image leaves the rest. -/
theorem test_load :
    (List.range 4).map (fun k => (loadProgram [0x11, 0x22] (loadProgram [0xAA, 0xBB, 0xCC, 0xDD] State.reset)).peek (0x200 + k))
      = [0x11, 0x22, 0xCC, 0xDD] := by decide

/-- V-LOAD2: an image of 3585 bytes is refused, memory unchanged, no FAULT. -/
theorem test_load_refuses :
    loadProgram (List.replicate 3585 0) State.reset = State.reset.emit (.loadFailed (.romTooLarge 3585)) := by
  simp [loadProgram, imageFits, -List.reduceReplicate]

/-! ## Witnesses: a state and operands that meet all the hypotheses of an obligation, and of each of its clauses -/

/-- `sample` with the word `w` at 0x200. -/
def holding (w : Nat) : State := sample.withFetchWord 16 w

/-- Every instruction of the table answers a next state at power-on: the premise `exec i s = .next t` of
InstructionsLeaveHostState, OnlyDrawEmitsRedraw and the other statements over all instructions holds for each of them. -/
theorem witness_every_instruction_completes :
    ([.cls, .ret, .jp 0xABC, .call 0xABC, .seNN 5 0x42, .sneNN 5 0x42, .seVY 1 2, .ldNN 3 7, .addNN 3 7, .ldVY 1 2,
      .orVY 1 2, .andVY 1 2] : List Instr).all (fun i => ends (exec i sample) fun _ => true) = true
    ∧ ([.xorVY 1 2, .addVY 1 2, .sub 1 2, .shr 1 2, .subn 1 2, .shl 1 2, .sneVY 1 2, .ldI 0x300, .jpV0 0x300, .rnd 1 0x3C,
      .drw 1 2 5] : List Instr).all (fun i => ends (exec i sample) fun _ => true) = true
    ∧ ([.skp 1, .sknp 1, .ldVxDT 4, .ldVxK 3, .ldDTVx 3, .ldSTVx 0, .addI 2, .ldF 7, .ldB 0, .ldMemVx 2,
      .ldVxMem 2] : List Instr).all (fun i => ends (exec i sample) fun _ => true) = true := by decide

theorem witness_DecodeEncodeRoundTrip : (Instr.drw 1 2 5).wf = true ∧ (Instr.jp 0xFFF).wf = true := by decide

theorem witness_EncodeDecodeRoundTrip : decodeWord 0xFF65 = some (.ldVxMem 15) := by decide

/-- One word for each set of R99, and a word of none of them. -/
theorem witness_UnknownWordsAreExactly :
    (([0x0123, 0x5AB1, 0x9AB8, 0x8ABF, 0xE100, 0xF1FF] : List Word).all fun w => decodeWord w == none) = true
    ∧ decodeWord 0x00E0 = some .cls := by decide

theorem witness_DecodeAgreesWithOpcodeTable :
    decodeWord 0xD125 = some (.drw 1 2 5)
    ∧ (⟨"DRW", some 0xD, none, none, none⟩ : OpcodeRow) ∈ opcodeTable ∧ decodeWord 0x8ABF = none := by decide

theorem witness_StepRunsDecodedInstruction :
    (holding 0x730A).Fetches ∧ decodeWord (holding 0x730A).nextWord = some (.addNN 3 0x0A)
    ∧ ({ sample with pc := 4094 } : State).Fetches := by
  refine ⟨⟨by decide, by decide, by decide⟩, by decide, ⟨rfl, rfl, by decide⟩⟩

theorem witness_StepLogsUnknownWord :
    (holding 0x5121).Fetches ∧ decodeWord (holding 0x5121).nextWord = none := by
  refine ⟨⟨by decide, by decide, by decide⟩, by decide⟩

/-- Both branches of the address: 4095 and the least `pc` above it, and the greatest a jump can reach. -/
theorem witness_FetchFaultsPastMemory :
    (∀ p ∈ ([0xFFF, 0x1000, 0x10FE] : List Nat), 4094 < (BitVec.ofNat 16 p : Word).toNat)
    ∧ sample.fault = none ∧ sample.inputs = [] := by decide

/-- A raise from a running state, by a step and by an event, and a state in FAULT. -/
theorem witness_FaultStateIsTerminal :
    stops (step (sample.setPc 0xFFF)) (.memFault 4096) = true
    ∧ stops (runEvent .instrStep (sample.setPc 0x10FE)) (.memFault 0x10FE) = true
    ∧ (sample.setFault (.memFault 4096)).fault = some (.memFault 4096) := by decide

/-- R204: the raise sets `fault` to its cause. -/
theorem test_fault_latched :
    ((sample.setPc 0xFFF).settle (step (sample.setPc 0xFFF))).fault = some (.memFault 4096) := by decide

theorem witness_StepPerformsScheduledEvent :
    sample.fault = none ∧ sample.inputs = []
    ∧ (sample.setInputs [.press 5, .delayTick]).fault = none
    ∧ (sample.setInputs [.press 5, .delayTick]).inputs = .press 5 :: [.delayTick] := ⟨rfl, rfl, rfl, rfl⟩

/-- One fault of each cause. -/
theorem witness_InstructionFaultCauses :
    stops (exec (.ldB 0) (sample.setI 4094)) (.memFault 4096) = true
    ∧ stops (exec (.skp 0) (sample.setReg 0 16)) (.keyIndexFault 16) = true
    ∧ stops (exec (.sknp 0) (sample.setReg 0 255)) (.keyIndexFault 255) = true
    ∧ stops (exec (.call 0x300) { sample with cfg := { sample.cfg with stackDepth := some 0 } }) .stackOverflow = true := by
  decide

theorem witness_WaitForKeyRefetches :
    (holding 0xF30A).Fetches ∧ decodeWord (holding 0xF30A).nextWord = some (.ldVxK 3)
    ∧ ∀ k, (holding 0xF30A).keyDown k = false := by
  refine ⟨⟨by decide, by decide, by decide⟩, by decide, by decide⟩

/-- A self-jump at 0x200, and at the last address that has one. -/
theorem witness_SelfJumpIsStable :
    (holding 0x1200).atSelfJump ∧ (holding 0x1200).inputs = []
    ∧ ((({ sample with pc := 0xFFE } : State).pokeBytes 0xFFE [0x1F, 0xFE])).atSelfJump := by
  refine ⟨⟨by decide, by decide, by decide⟩, by decide, ⟨by decide, by decide, by decide⟩⟩

theorem sample_inv : sample.Inv where
  memWf := rfl
  pcBound := by show (512 : Nat) ≤ 4350; omega
  stackBound := by intro v h; cases h
  depthBound := by intro d h; cases h
  cfgWf := by decide
  cpuFreq := by decide
  dtFreq := rfl
  stFreq := rfl

theorem witness_StepKeepsInvariant : sample.Inv ∧ ∃ t, step sample = .next t :=
  ⟨sample_inv, _, rfl⟩

theorem witness_ResetValues : (0x04F < 0x050 ∨ 0x0A0 ≤ 0x04F) ∧ (0x0A0 < 0x050 ∨ 0x0A0 ≤ 0x0A0) := by decide

/-- Each clause: a flag instruction, also with X = 0xF, and other instructions with and without a destination. -/
theorem witness_OnlyFlagInstructionsWriteVF :
    (∃ t, exec (.addVY 15 1) sample = .next t) ∧ mnemonic (.addVY 15 1) = "ADD_VY"
    ∧ (∃ t, exec (.ldNN 14 7) sample = .next t) ∧ mnemonic (.ldNN 14 7) = "LD_NN" ∧ destination (.ldNN 14 7) ≠ some 15
    ∧ (∃ t, exec (.ldVxMem 14) sample = .next t) ∧ destination (.ldVxMem 14) ≠ some 15 ∧ destination .cls ≠ some 15
    ∧ (14 : Nibble).toNat < (15 : Nibble).toNat :=
  ⟨⟨_, rfl⟩, rfl, ⟨_, rfl⟩, rfl, by decide, ⟨_, rfl⟩, by decide, by decide, by decide⟩

/-- A store, and addresses on both sides of the sixteen bytes. -/
theorem witness_OnlyStoresWriteMemory :
    (∃ t, exec (.ldMemVx 15) (sample.setI 0x300) = .next t)
    ∧ ¬(0x300 ≤ 0x2FF ∧ 0x2FF ≤ 0x300 + 15) ∧ ¬(0x300 ≤ 0x310 ∧ 0x310 ≤ 0x300 + 15)
    ∧ (∃ t, exec .cls sample = .next t) ∧ mnemonic .cls ∉ ["LD_B", "LD_MEM_VX"] :=
  ⟨⟨_, rfl⟩, by decide, by decide, ⟨_, rfl⟩, by decide⟩

/-- OnlyDisplayInstructionsWriteDisp, OnlyIndexInstructionsWriteI, StackAndTimersHaveOneWriter, OnlyDrawEmitsRedraw and
SoundTimerIsUnread: an instruction outside the list that answers a next state, and the instructions named. -/
theorem witness_rules_over_all_instructions :
    (∃ t, exec (.ldNN 3 7) sample = .next t)
    ∧ mnemonic (.ldNN 3 7) ∉ ["CLS", "DRW"] ∧ mnemonic (.ldNN 3 7) ∉ ["LD_I", "ADD_I", "LD_F"]
    ∧ mnemonic (.ldNN 3 7) ∉ ["CALL", "RET"] ∧ mnemonic (.ldNN 3 7) ≠ "LD_DT_VX" ∧ mnemonic (.ldNN 3 7) ≠ "LD_ST_VX"
    ∧ mnemonic (.drw 1 2 5) = "DRW" ∧ mnemonic (.ldSTVx 0) = "LD_ST_VX" :=
  ⟨⟨_, rfl⟩, by decide, by decide, by decide, by decide, by decide, rfl, rfl⟩

theorem witness_SkipsAdvancePc : (1 : Nibble) ≠ 0 ∧ (0xF : Nibble) ≠ 0 := by decide

theorem witness_ReturnPopsTheStack :
    (sample.setStack [0x302, 0x202]).stack = 0x302 :: [0x202] ∧ sample.stack = [] := ⟨rfl, rfl⟩

/-- Not full: unbounded, and 15 entries of 16; full: 16 entries of 16, and 0 of 0. -/
theorem witness_CallPushesReturnAddress :
    sample.cfg.stackDepth ≠ some sample.stack.length
    ∧ (some 16 : Option Nat) ≠ some (List.replicate 15 (0x202 : Word)).length := by decide

theorem witness_CallOverflowsFullStack :
    let s : State := { sample with
      stack := List.replicate 16 0x202, cfg := { sample.cfg with stackDepth := some 16 } }
    s.cfg.stackDepth = some s.stack.length := rfl

theorem witness_LogicIsBitwise : 0 < 8 ∧ 7 < 8 := by decide

theorem witness_AddSetsCarry : (14 : Nibble) ≠ 15 := by decide

theorem witness_SubtractsSetNotBorrow : (0 : Nibble) ≠ 15 := by decide

/-- Both values of SHIFT_SRC, each with the byte its clause asks for. -/
theorem witness_ShiftsSetBitOut :
    ((sample.setReg 2 0xFF).cfg.shiftSrc = .vx → 0xFF = (sample.setReg 2 0xFF).getReg 2)
    ∧ ((sample.setReg 2 0xFF).cfg.shiftSrc = .vy → 0xFF = (sample.setReg 2 0xFF).getReg 3)
    ∧ (({ sample.setReg 3 0x81 with cfg := { sample.cfg with shiftSrc := .vy } } : State).cfg.shiftSrc = .vx →
        0x81 = (sample.setReg 3 0x81).getReg 2)
    ∧ (({ sample.setReg 3 0x81 with cfg := { sample.cfg with shiftSrc := .vy } } : State).cfg.shiftSrc = .vy →
        0x81 = (sample.setReg 3 0x81).getReg 3) := by decide

theorem witness_RandomIsMaskedAndDrawnAnew :
    (2 : Nibble) ≠ 1 ∧ 0 < 8 ∧ (0x3C : Byte).getLsbD 0 = false := by decide

theorem witness_BcdStoresDigits : (sample.setI 4093).I.toNat ≤ 4093 ∧ sample.I.toNat ≤ 4093 := by decide

theorem witness_BlockStoreCopiesRegisters :
    (sample.setI 4080).I.toNat + (15 : Nibble).toNat ≤ 4095 ∧ (15 : Nibble).toNat ≤ (15 : Nibble).toNat := by decide

theorem witness_BlockLoadCopiesMemory :
    (sample.setI 4095).I.toNat + (0 : Nibble).toNat ≤ 4095 ∧ (0 : Nibble).toNat ≤ (0 : Nibble).toNat
    ∧ (0 : Nibble).toNat < (1 : Nibble).toNat := by decide

/-- Both sides of each condition: the least `I` at which the instruction faults and the greatest at which it does not, with
X = 15 and N = 5; and N = 0 with `I` past memory. -/
theorem witness_BlockAccessFaults :
    (4095 < (sample.setI 4094).I.toNat + 2 ∧ ¬ 4095 < (sample.setI 4093).I.toNat + 2)
    ∧ (4095 < (sample.setI 4081).I.toNat + (15 : Nibble).toNat ∧ ¬ 4095 < (sample.setI 4080).I.toNat + (15 : Nibble).toNat)
    ∧ ((1 ≤ (5 : Nibble).toNat ∧ 4095 < (sample.setI 4092).I.toNat + (5 : Nibble).toNat - 1)
      ∧ ¬ 4095 < (sample.setI 4091).I.toNat + (5 : Nibble).toNat - 1)
    ∧ ¬ 1 ≤ (0 : Nibble).toNat := by decide

theorem witness_MemoryReadAfterWrite :
    4095 ≤ 4095 ∧ 4095 < 4096 ∧ 0x200 ≠ 4095 ∧ Memory.wf sample.cfg.font sample.mem = true := by decide

theorem witness_FetchIsBigEndian : 0 ≤ 4094 ∧ 4094 ≤ 4094 := by decide

/-- No byte to read with `I` past memory, and the last byte of memory. -/
theorem witness_DrawInvertsSpriteCells :
    ((0 : Nibble) = 0 ∨ (sample.setI 0xFFFF).I.toNat + (0 : Nibble).toNat ≤ 4096)
    ∧ ((1 : Nibble) = 0 ∨ (sample.setI 4095).I.toNat + (1 : Nibble).toNat ≤ 4096) := by decide

/-- Both premises of the VF clauses: a set cell under a set bit, and a clear grid. -/
theorem witness_DrawInvertsSpriteCells_collision :
    (let s : State := { sample.poke 0x300 0x80 with
      I := 0x300, disp := Vector.replicate 32 (Vector.replicate 64 true) }
     spriteBit s 0 1 1 0 0 = true ∧ s.pixel 0 0 = true)
    ∧ ∀ r c, sample.pixel r c = false := by
  refine ⟨by decide, fun r c => by simp [sample, State.reset, State.pixel]⟩

/-- A draw whose registers X and Y keep their values, VF not being one of them. -/
theorem witness_DrawTwiceRestores :
    ∃ t, exec (.drw 0 1 1) (sample.setI 0x300) = .next t ∧ t.getReg 0 = (sample.setI 0x300).getReg 0
      ∧ t.getReg 1 = (sample.setI 0x300).getReg 1 := ⟨_, rfl, by decide, by decide⟩

theorem witness_KeySkipsTestTheLatch :
    (sample.getReg 1).toNat = (0 : Nibble).toNat
    ∧ ((sample.setReg 1 15).getReg 1).toNat = (15 : Nibble).toNat := by decide

theorem witness_KeySkipsFaultPastTheLatch :
    15 < ((sample.setReg 1 16).getReg 1).toNat ∧ 15 < ((sample.setReg 1 255).getReg 1).toNat := by decide

/-- No key, the least and the greatest key as the least that is down. -/
theorem witness_WaitForKeyTakesLeastKey :
    (∀ k, sample.keyDown k = false)
    ∧ ((sample.setKey 0 true).keyDown 0 = true ∧ ∀ j : Nibble, j.toNat < (0 : Nibble).toNat →
        (sample.setKey 0 true).keyDown j = false)
    ∧ ((sample.setKey 15 true).keyDown 15 = true ∧ ∀ j : Nibble, j.toNat < (15 : Nibble).toNat →
        (sample.setKey 15 true).keyDown j = false) := by decide

/-- The premises of TicksCountDownToZero, HostControlsWriteOneField and FrequencyControlsClamp. -/
theorem witness_host_events : sample.fault = none ∧ (6 : Nibble) ≠ 5 := by decide

theorem witness_LoadProgramCopiesOrRefuses :
    sample.fault = none ∧ (List.replicate 3584 (0xAA : Byte)).length ≤ 3584
    ∧ 3584 < (List.replicate 3585 (0xAA : Byte)).length ∧ 0 < (List.replicate 3584 (0xAA : Byte)).length := by
  simp [sample, State.reset, -List.reduceReplicate]

/-- Each clock just before and exactly at one period. -/
theorem witness_ClockPollsFireAfterOnePeriod :
    sample.fault = none
    ∧ (16 / 1000 : Rat) - sample.clkDt.last < 1 / sample.clkDt.freq ∧ 1 / sample.clkDt.freq ≤ (1 / 60 : Rat) - sample.clkDt.last
    ∧ (16 / 1000 : Rat) - sample.clkSt.last < 1 / sample.clkSt.freq ∧ 1 / sample.clkSt.freq ≤ (1 / 60 : Rat) - sample.clkSt.last
    ∧ (1 / 1000 : Rat) - sample.clkCpu.last < 1 / sample.clkCpu.freq
    ∧ 1 / sample.clkCpu.freq ≤ (2 / 1000 : Rat) - sample.clkCpu.last := by decide +kernel

end Sys2Proof.Tests
end

/-! PROOF. Timing is invisible to instructions (`00_scope.md` R6, `10_state.md` R35): an operation of a retimed state is the
retimed operation, so an instruction run from a retimed state ends in the retimed state or in the same fault. -/

namespace Sys2Proof.Machine

section Operations

variable (s : State) (a b c : Clock) (hz cpu up floor : Rat)

/-! What a retimed state reads. -/

@[simp] theorem State.retimed_getReg (r : Nibble) :
    (s.retimed a b c hz cpu up floor).getReg r = s.getReg r := rfl

@[simp] theorem State.retimed_pc : (s.retimed a b c hz cpu up floor).pc = s.pc := rfl

@[simp] theorem State.retimed_lowestKey : (s.retimed a b c hz cpu up floor).lowestKey = s.lowestKey := rfl

/-! How the operations commute with retiming. -/

theorem State.retimed_skipIf (q : Bool) :
    (s.retimed a b c hz cpu up floor).skipIf q = (s.skipIf q).retimed a b c hz cpu up floor := by
  cases q <;> rfl

theorem State.retimed_pop :
    (s.retimed a b c hz cpu up floor).pop = s.pop.map fun p => (p.1, p.2.retimed a b c hz cpu up floor) := by
  cases h : s.stack with
  | nil => rw [State.pop_nil s h, State.pop_nil (s.retimed a b c hz cpu up floor) h]; rfl
  | cons v l => rw [State.pop_cons s h, State.pop_cons (s.retimed a b c hz cpu up floor) h]; rfl

theorem State.retimed_push (v : Word) :
    (s.retimed a b c hz cpu up floor).push v = (s.push v).map fun t => t.retimed a b c hz cpu up floor := by
  rw [State.push, State.push, apply_ite (Except.map _)]
  rfl

theorem State.retimed_pokeBytes (n : Nat) (bs : List Byte) :
    (s.retimed a b c hz cpu up floor).pokeBytes n bs = (s.pokeBytes n bs).retimed a b c hz cpu up floor := by
  induction bs generalizing s n with
  | nil => rfl
  | cons v bs ih => exact ih (s.poke n v) (n + 1)

theorem State.retimed_setRegsFrom (n : Nat) (bs : List Byte) :
    (s.retimed a b c hz cpu up floor).setRegsFrom n bs = (s.setRegsFrom n bs).retimed a b c hz cpu up floor := by
  induction bs generalizing s n with
  | nil => rfl
  | cons v bs ih => exact ih (s.setReg (BitVec.ofNat 4 n) v) (n + 1)

end Operations

/-- The outcome of `f` from a retimed state is its outcome from the state itself, retimed. -/
def IgnoresTiming (f : State → Result State) : Prop :=
  ∀ (s : State) (a b c : Clock) (hz cpu up floor : Rat),
    f (s.retimed a b c hz cpu up floor) = mapNext (fun t => t.retimed a b c hz cpu up floor) (f s)

/-! The instructions whose outcome depends on the stack or on a key. -/

theorem execRet_ignoresTiming : IgnoresTiming execRet := by
  intro s a b c hz cpu up floor
  rw [execRet, execRet, State.retimed_pop]
  cases s.pop <;> rfl

theorem execCall_ignoresTiming (nnn : Addr12) : IgnoresTiming (execCall nnn) := by
  intro s a b c hz cpu up floor
  rw [execCall, execCall, State.retimed_pc, State.retimed_push]
  cases s.push s.pc <;> rfl

theorem execSkp_ignoresTiming (x : Nibble) : IgnoresTiming (execSkp x) := by
  intro s a b c hz cpu up floor
  simp only [execSkp, State.retimed_getReg, State.retimed_skipIf]
  cases keyIndex (s.getReg x) <;> rfl

theorem execSknp_ignoresTiming (x : Nibble) : IgnoresTiming (execSknp x) := by
  intro s a b c hz cpu up floor
  simp only [execSknp, State.retimed_getReg, State.retimed_skipIf]
  cases keyIndex (s.getReg x) <;> rfl

theorem execLdVxK_ignoresTiming (x : Nibble) : IgnoresTiming (execLdVxK x) := by
  intro s a b c hz cpu up floor
  rw [execLdVxK, execLdVxK, State.retimed_lowestKey]
  cases s.lowestKey <;> rfl

/-! The instructions that reach memory: the test on their addresses (Laws/Blocks) reads `I` and the operands alone. -/

theorem execDrw_ignoresTiming (x y n : Nibble) : IgnoresTiming (execDrw x y n) := by
  intro s a b c hz cpu up floor
  rw [execDrw_eq, execDrw_eq, apply_ite (mapNext _)]
  rfl

theorem execLdB_ignoresTiming (x : Nibble) : IgnoresTiming (execLdB x) := by
  intro s a b c hz cpu up floor
  rw [execLdB_eq, execLdB_eq, apply_ite (mapNext _), State.retimed_pokeBytes]
  rfl

theorem execLdMemVx_ignoresTiming (x : Nibble) : IgnoresTiming (execLdMemVx x) := by
  intro s a b c hz cpu up floor
  rw [execLdMemVx_eq, execLdMemVx_eq, apply_ite (mapNext _), State.retimed_pokeBytes]
  rfl

theorem execLdVxMem_ignoresTiming (x : Nibble) : IgnoresTiming (execLdVxMem x) := by
  intro s a b c hz cpu up floor
  rw [execLdVxMem_eq, execLdVxMem_eq, apply_ite (mapNext _), State.retimed_setRegsFrom]
  rfl

/-- No instruction reads a clock or a frequency. One that makes no test has one outcome, a next state given by named updates,
and retiming passes through those by computation. -/
theorem exec_ignoresTiming (i : Instr) : IgnoresTiming (exec i) := by
  cases i with
  | ret => exact execRet_ignoresTiming
  | call nnn => exact execCall_ignoresTiming nnn
  | seNN | sneNN | seVY | sneVY =>
    intro s a b c hz cpu up floor
    exact congrArg _ (State.retimed_skipIf ..)
  | drw x y n => exact execDrw_ignoresTiming x y n
  | skp x => exact execSkp_ignoresTiming x
  | sknp x => exact execSknp_ignoresTiming x
  | ldVxK x => exact execLdVxK_ignoresTiming x
  | ldB x => exact execLdB_ignoresTiming x
  | ldMemVx x => exact execLdMemVx_ignoresTiming x
  | ldVxMem x => exact execLdVxMem_ignoresTiming x
  | _ => exact fun _ _ _ _ _ _ _ _ => rfl

end Sys2Proof.Machine

namespace Sys2Proof.Proofs

open Sys2Proof.Machine

/-- Settles O25: every operation an instruction uses commutes with retiming. -/
theorem timingIsInvisible : Obligations.TimingIsInvisible := exec_ignoresTiming

/-- Settles O10, from the two laws of the cycle on a step outside FAULT. -/
theorem stepPerformsScheduledEvent : Obligations.StepPerformsScheduledEvent :=
  fun s hf => ⟨fun _ _ hi => step_event s hf hi, fun hi => step_instrStep s hf hi⟩

end Sys2Proof.Proofs

/-! PROOF. What an instruction can write (`10_state.md` R42), said once as the relation `Effect` and proved of `exec`; from
it the machine's invariant and the rules over all instructions. -/

namespace Sys2Proof.Machine

/-- The "writes" column of `10_state.md` R42: how the state after an instruction differs from the one it started from, whose
`pc` is already advanced. A skip that is not taken and a return from an empty stack write nothing. -/
inductive Effect (s : State) : Instr → State → Prop where
  | clear : Effect s .cls (s.setDisp clearGrid)
  | returnEmpty (h : s.stack = []) : Effect s .ret s
  | returnTo {v : Word} {l : List Word} (h : s.stack = v :: l) : Effect s .ret ((s.setStack l).setPc v)
  | call (nnn : Addr12) (h : s.cfg.stackDepth ≠ some s.stack.length) :
      Effect s (.call nnn) ((s.setStack (s.pc :: s.stack)).setPc (zextAddr nnn))
  | jump (nnn : Addr12) : Effect s (.jp nnn) (s.setPc (zextAddr nnn))
  | jumpV0 (nnn : Addr12) (b : Byte) : Effect s (.jpV0 nnn) (s.setPc (zextAddr nnn + zextByte b))
  | stay {i : Instr} (hi : mnemonic i ∈ ["SE_NN", "SNE_NN", "SE_VY", "SNE_VY", "SKP", "SKNP"]) : Effect s i s
  | skip {i : Instr} (hi : mnemonic i ∈ ["SE_NN", "SNE_NN", "SE_VY", "SNE_VY", "SKP", "SKNP"]) :
      Effect s i (s.setPc (s.pc + 2))
  | load {i : Instr} (x : Nibble) (v : Byte) (hd : destination i = some x)
      (hi : mnemonic i ∈ ["LD_NN", "ADD_NN", "LD_VY", "OR", "AND", "XOR", "LD_VX_DT", "LD_VX_K"]) :
      Effect s i (s.setReg x v)
  | random (x : Nibble) (nn v : Byte) : Effect s (.rnd x nn) (s.countDraw.setReg x v)
  | result {i : Instr} (x : Nibble) (v : Byte) (b : Bool)
      (hi : mnemonic i ∈ ["ADD_VY", "SUB", "SHR", "SUBN", "SHL"]) : Effect s i (s.setResultAndFlag x v b)
  | index {i : Instr} (v : Word) (hi : mnemonic i ∈ ["LD_I", "ADD_I", "LD_F"]) : Effect s i (s.setI v)
  | draw (x y n : Nibble) (d : Grid) (b : Bool) : Effect s (.drw x y n) (((s.setDisp d).setVF b).emit .redraw)
  | wait (x : Nibble) : Effect s (.ldVxK x) (s.setPc (s.pc - 2))
  | delay (x : Nibble) (v : Byte) : Effect s (.ldDTVx x) (s.setDT v)
  | sound (x : Nibble) (v : Byte) : Effect s (.ldSTVx x) (s.setST v)
  | store {i : Instr} (bs : List Byte) (hi : mnemonic i ∈ ["LD_B", "LD_MEM_VX"]) (hl : bs.length ≤ 16)
      (hb : s.I.toNat + bs.length ≤ 4096) : Effect s i { s with mem := (s.pokeBytes s.I.toNat bs).mem }
  | block (x : Nibble) (bs : List Byte) (hl : bs.length = x.toNat + 1) :
      Effect s (.ldVxMem x) { s with x := (s.setRegsFrom 0 bs).x }

variable {s t : State} {i : Instr}

theorem execRet_effect (h : execRet s = .next t) : Effect s .ret t := by
  cases hs : s.stack with
  | nil =>
    rw [execRet, State.pop_nil s hs] at h
    obtain rfl := Host.Outcome.next.inj h
    exact .returnEmpty hs
  | cons v l =>
    rw [execRet, State.pop_cons s hs] at h
    obtain rfl := Host.Outcome.next.inj h
    exact .returnTo hs

theorem execCall_effect {nnn : Addr12} (h : execCall nnn s = .next t) : Effect s (.call nnn) t := by
  by_cases hd : s.cfg.stackDepth = some s.stack.length
  · rw [execCall, State.push_full s s.pc hd] at h
    cases h
  · rw [execCall, State.push_ok s s.pc hd] at h
    obtain rfl := Host.Outcome.next.inj h
    exact .call nnn hd

/-- A skip, taken or not. -/
theorem skipIf_effect (hi : mnemonic i ∈ ["SE_NN", "SNE_NN", "SE_VY", "SNE_VY", "SKP", "SKNP"]) (b : Bool) :
    Effect s i (s.skipIf b) := by
  cases b with
  | false => exact .stay hi
  | true => exact .skip hi

theorem execSkp_effect {x : Nibble} (h : execSkp x s = .next t) : Effect s (.skp x) t := by
  rw [execSkp] at h
  split at h
  · cases h
  · obtain rfl := Host.Outcome.next.inj h
    exact skipIf_effect (by simp [mnemonic]) _

theorem execSknp_effect {x : Nibble} (h : execSknp x s = .next t) : Effect s (.sknp x) t := by
  rw [execSknp] at h
  split at h
  · cases h
  · obtain rfl := Host.Outcome.next.inj h
    exact skipIf_effect (by simp [mnemonic]) _

theorem execLdVxK_effect {x : Nibble} (h : execLdVxK x s = .next t) : Effect s (.ldVxK x) t := by
  rw [execLdVxK] at h
  split at h
  · obtain rfl := Host.Outcome.next.inj h
    exact .wait x
  · obtain rfl := Host.Outcome.next.inj h
    exact .load x _ rfl (by simp [mnemonic])

theorem execDrw_effect {x y n : Nibble} (h : execDrw x y n s = .next t) : Effect s (.drw x y n) t := by
  rw [execDrw_eq] at h
  split at h
  · obtain rfl := Host.Outcome.next.inj h
    exact .draw x y n _ _
  · cases h

/-- A store whose bytes are all in memory. -/
theorem pokeBytes_effect {bs : List Byte} (hi : mnemonic i ∈ ["LD_B", "LD_MEM_VX"]) (hl : bs.length ≤ 16)
    (hb : s.I.toNat + bs.length ≤ 4096) : Effect s i (s.pokeBytes s.I.toNat bs) := by
  rw [State.pokeBytes_frame]
  exact .store bs hi hl hb

theorem execLdB_effect {x : Nibble} (h : execLdB x s = .next t) : Effect s (.ldB x) t := by
  have hl : (bcdDigits (s.getReg x)).length = 3 := rfl
  rw [execLdB_eq] at h
  split at h
  · obtain rfl := Host.Outcome.next.inj h
    exact pokeBytes_effect (by simp [mnemonic]) (by omega) (by omega)
  · cases h

theorem execLdMemVx_effect {x : Nibble} (h : execLdMemVx x s = .next t) : Effect s (.ldMemVx x) t := by
  have hl : (s.firstRegs (x.toNat + 1)).length = x.toNat + 1 := s.firstRegs_length _
  rw [execLdMemVx_eq] at h
  split at h
  · obtain rfl := Host.Outcome.next.inj h
    exact pokeBytes_effect (by simp [mnemonic]) (by omega) (by omega)
  · cases h

theorem execLdVxMem_effect {x : Nibble} (h : execLdVxMem x s = .next t) : Effect s (.ldVxMem x) t := by
  rw [execLdVxMem_eq] at h
  split at h
  · obtain rfl := Host.Outcome.next.inj h
    rw [State.setRegsFrom_frame]
    exact .block x _ (by simp)
  · cases h

/-- An instruction that completes has one of the effects of R42. -/
theorem exec_effect (h : exec i s = .next t) : Effect s i t := by
  cases i with
  | ret => exact execRet_effect h
  | call nnn => exact execCall_effect h
  | skp x => exact execSkp_effect h
  | sknp x => exact execSknp_effect h
  | ldVxK x => exact execLdVxK_effect h
  | drw x y n => exact execDrw_effect h
  | ldB x => exact execLdB_effect h
  | ldMemVx x => exact execLdMemVx_effect h
  | ldVxMem x => exact execLdVxMem_effect h
  | cls =>
    obtain rfl := Host.Outcome.next.inj h
    exact .clear
  | jp =>
    obtain rfl := Host.Outcome.next.inj h
    exact .jump _
  | jpV0 =>
    obtain rfl := Host.Outcome.next.inj h
    exact .jumpV0 _ _
  | seNN | sneNN | seVY | sneVY =>
    obtain rfl := Host.Outcome.next.inj h
    exact skipIf_effect (by simp [mnemonic]) _
  | ldNN | addNN | ldVY | orVY | andVY | xorVY | ldVxDT =>
    obtain rfl := Host.Outcome.next.inj h
    exact .load _ _ rfl (by simp [mnemonic])
  | addVY | sub | shr | subn | shl =>
    obtain rfl := Host.Outcome.next.inj h
    exact .result _ _ _ (by simp [mnemonic])
  | rnd =>
    obtain rfl := Host.Outcome.next.inj h
    exact .random _ _ _
  | ldI | addI | ldF =>
    obtain rfl := Host.Outcome.next.inj h
    exact .index _ (by simp [mnemonic])
  | ldDTVx =>
    obtain rfl := Host.Outcome.next.inj h
    exact .delay _ _
  | ldSTVx =>
    obtain rfl := Host.Outcome.next.inj h
    exact .sound _ _

/-! The invariant. -/

theorem zextAddr_toNat_le (nnn : Addr12) : (zextAddr nnn).toNat ≤ 4095 := by
  have := nnn.isLt
  simp only [zextAddr, BitVec.toNat_setWidth]
  omega

/-- The sum of `Bnnn` never wraps and is at most 0x10FE (`10_state.md` R26). -/
theorem jumpV0_target_le (nnn : Addr12) (b : Byte) : (zextAddr nnn + zextByte b).toNat ≤ 0x10FE := by
  have h := zextAddr_toNat_le nnn
  have := b.isLt
  simp only [zextByte, BitVec.toNat_add, BitVec.toNat_setWidth]
  omega

theorem State.Inv.setPc (h : s.Inv) {v : Word} (hv : v.toNat ≤ 0x10FE) : (s.setPc v).Inv := { h with pcBound := hv }

/-- A pushed return address is at most 4096 and a push is refused at a finite depth (R26, R29). -/
theorem State.Inv.push (h : s.Inv) (hpc : s.pc.toNat ≤ 4096) (hd : s.cfg.stackDepth ≠ some s.stack.length) :
    (s.setStack (s.pc :: s.stack)).Inv :=
  { h with
    stackBound := List.forall_mem_cons.2 ⟨hpc, h.stackBound⟩
    depthBound := fun d hsd =>
      Nat.lt_of_le_of_ne (h.depthBound d hsd) fun he => hd (hsd.trans (congrArg some he.symm)) }

theorem State.Inv.pop (h : s.Inv) {v : Word} {l : List Word} (hs : s.stack = v :: l) : (s.setStack l).Inv :=
  { h with
    stackBound := fun w hw => h.stackBound w (hs ▸ List.mem_cons_of_mem v hw)
    depthBound := fun d hsd => by
      have hlen := h.depthBound d hsd
      rw [hs, List.length_cons] at hlen
      exact Nat.le_of_succ_le hlen }

theorem State.Inv.pokeBytes (h : s.Inv) {a : Nat} {bs : List Byte} (ha : a + bs.length ≤ 4096) :
    (s.pokeBytes a bs).Inv := by
  have hm := State.pokeBytes_wf s a bs ha h.memWf
  rw [State.pokeBytes_frame] at hm ⊢
  exact { h with memWf := hm }

theorem State.Inv.setClkCpu (h : s.Inv) {c : Clock} (hc : s.cfg.freqFloor ≤ c.freq) : (s.setClkCpu c).Inv :=
  { h with cpuFreq := hc }

theorem State.Inv.advance (h : s.Inv) (hpc : s.pc.toNat ≤ 4094) : s.advance.Inv := h.setPc (by bv_omega)

/-- An instruction run from a `pc` that an advance has reached keeps the invariant. -/
theorem exec_keeps_inv (hs : s.Inv) (hlo : 2 ≤ s.pc.toNat) (hhi : s.pc.toNat ≤ 4096) (h : exec i s = .next t) :
    t.Inv := by
  cases exec_effect h with
  | returnTo hst =>
    have hv := hs.stackBound _ (hst ▸ List.mem_cons_self)
    exact (hs.pop hst).setPc (by omega)
  | call nnn hd =>
    have := zextAddr_toNat_le nnn
    exact (hs.push hhi hd).setPc (by omega)
  | jump nnn =>
    have := zextAddr_toNat_le nnn
    exact hs.setPc (by omega)
  | jumpV0 nnn b => exact hs.setPc (jumpV0_target_le nnn b)
  | skip => exact hs.setPc (by bv_omega)
  | wait => exact hs.setPc (by bv_omega)
  | store bs _ _ hb =>
    rw [← State.pokeBytes_frame]
    exact hs.pokeBytes hb
  | _ => exact { hs with }

/-- An InstrStep keeps the invariant: its fetch bounds `pc` before the advance (R121). -/
theorem instrStep_keeps_inv (hs : s.Inv) (h : instrStep s = .next t) : t.Inv := by
  obtain ⟨-, he⟩ | ⟨hpc, w, -, ⟨i, -, he⟩ | ⟨-, he⟩⟩ := instrStep_cases s
  · rw [he] at h
    cases h
  · have hp : s.advance.pc.toNat = s.pc.toNat + 2 := by rw [State.advance_eq]; bv_omega
    rw [he] at h
    exact exec_keeps_inv (hs.advance hpc) (by omega) (by omega) h
  · rw [he] at h
    obtain rfl := Host.Outcome.next.inj h
    exact { hs.advance hpc with }

theorem State.Inv.noteTimeRead (h : s.Inv) (now : Option Rat) : (s.noteTimeRead now).Inv := by
  rw [State.noteTimeRead_frame]
  exact { h with }

/-- A poll keeps the invariant: its tick leaves the clock's frequency (R217). -/
theorem pollCpu_keeps_inv {now : Option Rat} (hs : s.Inv) (h : pollCpu now s = .next t) : t.Inv := by
  have hf := clockTick_freq s.clkCpu now
  rw [pollCpu] at h
  split at h
  next c hc =>
    rw [hc] at hf
    exact instrStep_keeps_inv (hs.setClkCpu (hf ▸ hs.cpuFreq)) h
  next =>
    obtain rfl := Host.Outcome.next.inj h
    exact hs.noteTimeRead now

theorem pollDelay_keeps_inv (hs : s.Inv) (now : Option Rat) : (pollDelay now s).2.Inv := by
  have hf := clockTick_freq s.clkDt now
  rw [pollDelay]
  split
  next c hc =>
    rw [hc] at hf
    exact { hs with dtFreq := hf.trans hs.dtFreq }
  next => exact hs.noteTimeRead now

theorem pollSound_keeps_inv (hs : s.Inv) (now : Option Rat) : (pollSound now s).2.Inv := by
  have hf := clockTick_freq s.clkSt now
  rw [pollSound]
  split
  next c hc =>
    rw [hc] at hf
    exact { hs with stFreq := hf.trans hs.stFreq }
  next => exact hs.noteTimeRead now

theorem loadProgram_keeps_inv (hs : s.Inv) (image : List Byte) : (loadProgram image s).Inv := by
  rw [loadProgram]
  split
  · next hl =>
    have : image.length ≤ 3584 := by simpa [imageFits] using hl
    exact hs.pokeBytes (by omega)
  · exact { hs with }

/-- Every event keeps the invariant. -/
theorem performEvent_keeps_inv {e : Event} (hs : s.Inv) (h : performEvent e s = .next t) : t.Inv := by
  cases e with
  | instrStep => exact instrStep_keeps_inv hs h
  | pollCpu now => exact pollCpu_keeps_inv hs h
  | pollDelay now => exact Host.Outcome.next.inj h ▸ pollDelay_keeps_inv hs now
  | pollSound now => exact Host.Outcome.next.inj h ▸ pollSound_keeps_inv hs now
  | loadProgram image => exact Host.Outcome.next.inj h ▸ loadProgram_keeps_inv hs image
  | warmReset => exact Host.Outcome.next.inj h ▸ hs.setPc (by decide)
  | freqUp | freqDown => exact Host.Outcome.next.inj h ▸ hs.setClkCpu (setFrequency_floor ..)
  | delayTick | soundTick | press | release => exact Host.Outcome.next.inj h ▸ { hs with }

/-- In FAULT a step answers the cause the machine stopped with, whatever the host has scheduled (R204). -/
theorem step_fault {c : Fault} (h : s.fault = some c) : step s = .fault c := by
  cases hi : s.inputs with
  | nil => rw [step, nextEvent, hi]; exact runEvent_fault s h .instrStep
  | cons e rest => rw [step, nextEvent, hi]; exact runEvent_fault (s.setInputs rest) h e

/-! The registers, and VF among them (`10_state.md` R22). -/

theorem flagByte_eq_zero_or_one (b : Bool) : flagByte b = 0 ∨ flagByte b = 1 := by
  cases b with
  | false => exact .inl rfl
  | true => exact .inr rfl

/-- The instructions of R22 leave a flag in VF, whatever register their result goes to. -/
theorem exec_flag (h : exec i s = .next t) (hi : mnemonic i ∈ ["ADD_VY", "SUB", "SHR", "SUBN", "SHL", "DRW"]) :
    ∃ b, t.getReg 15 = flagByte b := by
  cases exec_effect h with
  | result x v b => exact ⟨b, State.setResultAndFlag_VF ..⟩
  | draw x y n d b => exact ⟨b, State.getReg_setReg_self ..⟩
  | stay hm | skip hm | load _ _ _ hm | index _ hm | store _ hm =>
    exact (List.disjoint_left.2 (by decide) hm hi).elim
  | _ => exact absurd hi (by simp [mnemonic])

theorem State.setRegsFrom_getReg_above {x r : Nibble} {bs : List Byte} (hl : bs.length = x.toNat + 1)
    (hr : x.toNat < r.toNat) : (s.setRegsFrom 0 bs).getReg r = s.getReg r := by
  have hx := x.isLt
  rw [State.setRegsFrom_getReg s 0 bs (by omega), if_neg (by omega)]

/-- `Fx65` changes no register above Vx (`43_index_memory.md` R176). -/
theorem exec_block_above {x r : Nibble} (h : exec (.ldVxMem x) s = .next t) (hr : x.toNat < r.toNat) :
    t.getReg r = s.getReg r := by
  cases exec_effect h with
  | block _ bs hl => exact State.setRegsFrom_getReg_above hl hr
  | stay hm | skip hm | load _ _ _ hm | result _ _ _ hm | index _ hm | store _ hm => simp [mnemonic] at hm

/-- An instruction outside those of R22 changes VF only as its destination. -/
theorem exec_VF_frame (h : exec i s = .next t) (hi : mnemonic i ∉ ["ADD_VY", "SUB", "SHR", "SUBN", "SHL", "DRW"])
    (hd : destination i ≠ some 15) : t.getReg 15 = s.getReg 15 := by
  cases exec_effect h with
  | load x v hx => exact State.getReg_setReg_ne s (fun he : (15 : Nibble) = x => hd (he ▸ hx)) v
  | random x nn v => exact State.getReg_setReg_ne s.countDraw (fun he => hd (congrArg some he.symm)) v
  | result x v b hm => exact absurd (List.mem_append_left ["DRW"] hm) hi
  | draw => simp [mnemonic] at hi
  | block x bs hl =>
    have hx : x.toNat ≠ 15 := fun he => hd (congrArg some (BitVec.eq_of_toNat_eq he))
    have hlt := x.isLt
    exact exec_block_above h (show x.toNat < 15 by omega)
  | _ => rfl

/-! The sound timer: an operation of a state with another value in it is the operation, with that value in it. -/

section SoundTimer

variable (s : State) (v : Byte)

theorem State.setST_skipIf (b : Bool) : (s.setST v).skipIf b = (s.skipIf b).setST v := by
  cases b <;> rfl

theorem State.setST_pop : (s.setST v).pop = s.pop.map fun p => (p.1, p.2.setST v) := by
  cases h : s.stack with
  | nil => rw [State.pop_nil s h, State.pop_nil (s.setST v) h]; rfl
  | cons w l => rw [State.pop_cons s h, State.pop_cons (s.setST v) h]; rfl

theorem State.setST_push (w : Word) : (s.setST v).push w = (s.push w).map fun t => t.setST v := by
  rw [State.push, State.push, apply_ite (Except.map _)]
  rfl

theorem State.setST_pokeBytes (n : Nat) (bs : List Byte) :
    (s.setST v).pokeBytes n bs = (s.pokeBytes n bs).setST v := by
  induction bs generalizing s n with
  | nil => rfl
  | cons b bs ih => exact ih (s.poke n b) (n + 1)

theorem State.setST_setRegsFrom (n : Nat) (bs : List Byte) :
    (s.setST v).setRegsFrom n bs = (s.setRegsFrom n bs).setST v := by
  induction bs generalizing s n with
  | nil => rfl
  | cons b bs ih => exact ih (s.setReg (BitVec.ofNat 4 n) b) (n + 1)

end SoundTimer

/-- Every instruction but `Fx18` carries a value of the sound timer through to its next state. -/
theorem exec_setST (hi : mnemonic i ≠ "LD_ST_VX") (s : State) (v : Byte) :
    exec i (s.setST v) = mapNext (fun t => t.setST v) (exec i s) := by
  cases i with
  | ret =>
    rw [exec, exec, execRet, execRet, State.setST_pop]
    cases s.pop <;> rfl
  | call nnn =>
    rw [exec, exec, execCall, execCall, State.setST_pc, State.setST_push]
    cases s.push s.pc <;> rfl
  | seNN | sneNN | seVY | sneVY => exact congrArg _ (State.setST_skipIf ..)
  | skp x | sknp x =>
    simp only [exec, execSkp, execSknp, State.getReg_setST, State.setST_skipIf]
    cases keyIndex (s.getReg x) <;> rfl
  | ldVxK x =>
    have hk : (s.setST v).lowestKey = s.lowestKey := rfl
    rw [exec, exec, execLdVxK, execLdVxK, hk]
    cases s.lowestKey <;> rfl
  | drw => rw [exec, exec, execDrw_eq, execDrw_eq, apply_ite (mapNext _)]; rfl
  | ldB => rw [exec, exec, execLdB_eq, execLdB_eq, apply_ite (mapNext _), State.setST_pokeBytes]; rfl
  | ldMemVx => rw [exec, exec, execLdMemVx_eq, execLdMemVx_eq, apply_ite (mapNext _), State.setST_pokeBytes]; rfl
  | ldVxMem => rw [exec, exec, execLdVxMem_eq, execLdVxMem_eq, apply_ite (mapNext _), State.setST_setRegsFrom]; rfl
  | ldSTVx => exact absurd rfl hi
  | _ => rfl

/-! Power-on. -/

theorem initByte_of_outside (font : Vector Byte 80) {a : Nat} (h : a < 0x050 ∨ 0x0A0 ≤ a) : initByte font a = 0 := by
  rw [initByte]
  split
  · rw [Vector.getElem?_eq_none (by omega)]; rfl
  · rfl

theorem initByte_font (font : Vector Byte 80) (k : Fin 80) : initByte font (0x050 + k.val) = font[k] := by
  rw [initByte, if_pos (by omega), Nat.add_sub_cancel_left, Vector.getElem?_eq_getElem k.isLt]
  rfl

/-- Memory lists nothing at power-on, so it reads as its power-on content. -/
theorem State.reset_peek (a : Nat) : State.reset.peek a = initByte State.reset.cfg.font a := rfl

end Sys2Proof.Machine

namespace Sys2Proof.Proofs

open Sys2Proof.Machine

/-- Settles O15: a step outside FAULT performs an event, and every event keeps the invariant. -/
theorem stepKeepsInvariant : Obligations.StepKeepsInvariant := by
  intro s t hs h
  cases hf : s.fault with
  | some c =>
    rw [step_fault hf] at h
    cases h
  | none =>
    cases hi : s.inputs with
    | nil => exact instrStep_keeps_inv hs (step_instrStep s hf hi ▸ h)
    | cons e rest => exact performEvent_keeps_inv (s := s.setInputs rest) { hs with } (step_event s hf hi ▸ h)

/-- Settles O18: no effect of R42 writes a field of the host's. -/
theorem instructionsLeaveHostState : Obligations.InstructionsLeaveHostState := by
  intro i s t h
  cases exec_effect h <;> exact ⟨rfl, rfl, rfl, rfl, rfl, rfl, rfl⟩

/-- Settles O19, over the effects of R42. -/
theorem onlyDisplayInstructionsWriteDisp : Obligations.OnlyDisplayInstructionsWriteDisp := by
  intro i s t h hi
  cases exec_effect h with
  | clear | draw => simp [mnemonic] at hi
  | _ => rfl

/-- Settles O20: its three clauses are the flag written, the frame of VF, and the frame of `Fx65`. -/
theorem onlyFlagInstructionsWriteVF : Obligations.OnlyFlagInstructionsWriteVF := by
  intro i s t h
  refine ⟨fun hi => ?_, exec_VF_frame h, ?_⟩
  · obtain ⟨b, hb⟩ := exec_flag h hi
    rw [hb]
    exact flagByte_eq_zero_or_one b
  · rintro x r rfl hr
    exact exec_block_above h hr

/-- Settles O21, over the effects of R42. -/
theorem onlyIndexInstructionsWriteI : Obligations.OnlyIndexInstructionsWriteI := by
  intro i s t h hi
  cases exec_effect h with
  | index v hm => exact absurd hm hi
  | _ => rfl

/-- Settles O23, over the effects of R42. -/
theorem stackAndTimersHaveOneWriter : Obligations.StackAndTimersHaveOneWriter := by
  intro i s t h
  cases exec_effect h with
  | returnTo | call => exact ⟨fun hi => by simp [mnemonic] at hi, fun _ => rfl, fun _ => rfl⟩
  | delay => exact ⟨fun _ => rfl, fun hi => absurd rfl hi, fun _ => rfl⟩
  | sound => exact ⟨fun _ => rfl, fun _ => rfl, fun hi => absurd rfl hi⟩
  | _ => exact ⟨fun _ => rfl, fun _ => rfl, fun _ => rfl⟩

/-- Settles O24: of the effects of R42 only a draw's has an output. -/
theorem onlyDrawEmitsRedraw : Obligations.OnlyDrawEmitsRedraw := by
  intro i s t h
  cases exec_effect h with
  | stay hm | skip hm | load _ _ _ hm | result _ _ _ hm | index _ hm | store _ hm =>
    exact (if_neg (ne_of_mem_of_not_mem hm (by decide))).symm
  | _ => rfl

/-- Settles O26: `Fx18` overwrites the sound timer, and every other instruction carries it through. -/
theorem soundTimerIsUnread : Obligations.SoundTimerIsUnread := by
  refine fun i s v => ⟨fun hi => exec_setST hi s v, fun hi => ?_⟩
  cases i with
  | ldSTVx x => rfl
  | _ => simp [mnemonic] at hi

/-- Settles O17: the fields by computation, memory by the power-on content of an unlisted address. -/
theorem resetValues : Obligations.ResetValues := by
  refine ⟨rfl, ?_, rfl, rfl, ?_, ?_, rfl, rfl, rfl, fun a ha => ?_, fun k => ?_, rfl, rfl, rfl,
    rfl, rfl, rfl, rfl⟩
  · simp [State.reset, State.getReg]
  · simp [State.reset, State.keyDown]
  · simp [State.reset, State.pixel]
  · rw [State.reset_peek, initByte_of_outside _ ha]
  · rw [State.reset_peek, initByte_font]

end Sys2Proof.Proofs

/-! PROOF. Memory (`20_memory.md` R60 to R73): single bytes, 16-bit reads, the block accesses through `I`, and which
instructions can change a byte. -/

namespace Sys2Proof.Machine

variable (s : State) {t : State} {i : Instr}

/-! Single bytes and words. -/

theorem State.readByte_of_le {a : Nat} (h : a ≤ 4095) : s.readByte a = .ok (s.peek a) := if_pos h

theorem State.readByte_of_gt {a : Nat} (h : 4095 < a) : s.readByte a = .error (.memFault a) := if_neg (by omega)

theorem State.writeByte_of_le {a : Nat} (h : a ≤ 4095) (v : Byte) : s.writeByte a v = .ok (s.poke a v) := if_pos h

theorem State.writeByte_of_gt {a : Nat} (h : 4095 < a) (v : Byte) : s.writeByte a v = .error (.memFault a) :=
  if_neg (by omega)

/-- A poke leaves the read of every other address as it was, faults included. -/
theorem State.readByte_poke_ne {a b : Nat} (h : b ≠ a) (v : Byte) : (s.poke a v).readByte b = s.readByte b := by
  rw [State.readByte, State.readByte, State.peek_poke_ne s h]

/-- The two bytes of a word do not overlap (`20_memory.md` R63). -/
theorem joinBytes_toNat (hi lo : Byte) : (joinBytes hi lo).toNat = hi.toNat <<< 8 ||| lo.toNat := by
  have hhi := hi.isLt
  have hlo := lo.isLt
  rw [← Nat.shiftLeft_add_eq_or_of_lt hlo, Nat.shiftLeft_eq, joinBytes, BitVec.toNat_ofNat]
  omega

/-! Stores. -/

/-- The effects of R42 other than a store carry memory through. -/
theorem Effect.mem_eq {s : State} (h : Effect s i t) (hi : mnemonic i ∉ ["LD_B", "LD_MEM_VX"]) : t.mem = s.mem := by
  cases h with
  | store _ hm => exact absurd hm hi
  | _ => rfl

/-- A store is a block of at most sixteen bytes from `I` up; every other effect leaves all of memory. -/
theorem Effect.peek_eq {s : State} (h : Effect s i t) {a : Nat} (ha : ¬(s.I.toNat ≤ a ∧ a ≤ s.I.toNat + 15)) :
    t.peek a = s.peek a := by
  cases h with
  | store bs _ hl =>
    rw [← State.pokeBytes_frame, State.peek_pokeBytes, if_neg (by omega)]
  | _ => rfl

/-! Block accesses. -/

/-- An outcome with one condition for completing, read as its fault condition. -/
theorem fault_or_next {r : Result State} {c : Fault} {p q : Prop} [Decidable p] [Decidable q]
    (h : r = if q then .next t else .fault c) (hpq : p ↔ ¬q) :
    if p then r = .fault c else ∃ t, r = .next t := by
  by_cases hq : q
  · rw [if_neg (by simpa [hpq] using hq), h, if_pos hq]
    exact ⟨t, rfl⟩
  · rw [if_pos (hpq.2 hq), h, if_neg hq]

end Sys2Proof.Machine

namespace Sys2Proof.Proofs

open Sys2Proof.Machine

/-- Settles O22, over the effects of R42. -/
theorem onlyStoresWriteMemory : Obligations.OnlyStoresWriteMemory :=
  fun _ _ _ h => ⟨(exec_effect h).mem_eq, fun _ ha => (exec_effect h).peek_eq ha⟩

/-- Settles O45: each block access has one condition on its last address. -/
theorem blockAccessFaults : Obligations.BlockAccessFaults := by
  intro s x y n
  refine ⟨fault_or_next (execLdB_eq s x) (by omega), ?_, fault_or_next (execDrw_eq s x y n) ?_⟩
  · have hst := fault_or_next (p := 4095 < s.I.toNat + x.toNat) (execLdMemVx_eq s x) (by omega)
    have hld := fault_or_next (p := 4095 < s.I.toNat + x.toNat) (execLdVxMem_eq s x) (by omega)
    split_ifs at hst hld ⊢ <;> exact ⟨hst, hld⟩
  · have hn : n = 0 ↔ n.toNat = 0 := BitVec.toNat_inj.symm
    rw [hn]
    omega

/-- Settles O46: a write within memory is a poke, and past memory both accesses fault. -/
theorem memoryReadAfterWrite : Obligations.MemoryReadAfterWrite := by
  intro s a b v
  refine ⟨fun ha => ⟨s.poke a v, s.writeByte_of_le ha v, rfl, ?_, ?_, ?_⟩, fun ha => ?_⟩
  · rw [State.readByte_of_le _ ha, State.peek_poke_self]
  · exact fun hb => s.readByte_poke_ne hb v
  · exact s.poke_wf a v ha
  · exact ⟨s.writeByte_of_gt ha v, s.readByte_of_gt ha⟩

/-- Settles O47: within memory a 16-bit read joins the two bytes read singly. -/
theorem fetchIsBigEndian : Obligations.FetchIsBigEndian := by
  intro s a ha
  refine ⟨joinBytes (s.peek a) (s.peek (a + 1)), s.peek a, s.peek (a + 1), ?_, ?_, ?_, joinBytes_toNat _ _⟩
  · rw [State.readWord_eq, if_pos ha]
  · exact s.readByte_of_le (by omega)
  · exact s.readByte_of_le (by omega)

end Sys2Proof.Proofs

/-! PROOF. The decoder against the encoder, the unknown words and the opcode table (`30_encoding.md` R90 to R99). -/

namespace Sys2Proof

variable {w : Word} {i : Instr}

/-! Decoding after encoding, by the format of R92 and the sub-decoder of R95. -/

theorem decodeWord_encode (i : Instr) : decodeWord (encode i) = some i := by
  cases i with
  | cls | ret => rfl
  | jp | call | ldI | jpV0 => simp [encode, decodeWord, fields_packA]
  | seNN | sneNN | ldNN | addNN | rnd => simp [encode, decodeWord, fields_packXB]
  | seVY | sneVY | drw => simp [encode, decodeWord, fields_packXYN]
  | ldVY | orVY | andVY | xorVY | addVY | sub | shr | subn | shl =>
    simp [encode, decodeWord, decode8, fields_packXYN]
  | skp | sknp => simp [encode, decodeWord, decodeE, fields_packXB]
  | ldVxDT | ldVxK | ldDTVx | ldSTVx | addI | ldF | ldB | ldMemVx | ldVxMem =>
    simp [encode, decodeWord, decodeF, fields_packXB]

/-! Encoding after decoding: the fields that an arm of the decoder tests and those it hands on make up the whole word. -/

theorem packA_fields {op : Nibble} {nnn : Addr12} (hop : (fields w).op = op) (hnnn : (fields w).nnn = nnn) :
    packA op nnn = w := by
  rw [← hop, ← hnnn, ← (fields_overlap w).1]

theorem packXB_fields {op : Nibble} {nn : Byte} (hop : (fields w).op = op) (hnn : (fields w).nn = nn) :
    packXB op (fields w).x nn = w := by
  rw [← hop, ← hnn, ← (fields_overlap w).2.1]

theorem packXYN_fields {op n : Nibble} (hop : (fields w).op = op) (hn : (fields w).n = n) :
    packXYN op (fields w).x (fields w).y n = w := by
  rw [← hop, ← hn, ← (fields_overlap w).2.2]

theorem encode_of_decode0 (hop : (fields w).op = 0x0) (h : decode0 (fields w) = some i) : encode i = w := by
  unfold decode0 at h
  split at h <;> cases h
  all_goals
    rw [← packA_fields hop ‹_›]
    rfl

theorem encode_of_decode8 (hop : (fields w).op = 0x8) (h : decode8 (fields w) = some i) : encode i = w := by
  unfold decode8 at h
  split at h <;> cases h
  all_goals exact packXYN_fields hop ‹_›

theorem encode_of_decodeE (hop : (fields w).op = 0xE) (h : decodeE (fields w) = some i) : encode i = w := by
  unfold decodeE at h
  split at h <;> cases h
  all_goals exact packXB_fields hop ‹_›

theorem encode_of_decodeF (hop : (fields w).op = 0xF) (h : decodeF (fields w) = some i) : encode i = w := by
  unfold decodeF at h
  split at h <;> cases h
  all_goals exact packXB_fields hop ‹_›

/-- No arm of the opcode map of R95 leaves a bit of the word unread. -/
theorem encode_of_decodeWord (h : decodeWord w = some i) : encode i = w := by
  simp only [decodeWord] at h
  split at h
  case h_1 hop => exact encode_of_decode0 hop h
  case h_9 hop => exact encode_of_decode8 hop h
  case h_15 hop => exact encode_of_decodeE hop h
  case h_16 hop => exact encode_of_decodeF hop h
  case h_6 hop | h_10 hop =>
    split at h <;> cases h
    exact packXYN_fields hop ‹_›
  all_goals cases h
  case h_2 hop | h_3 hop | h_11 hop | h_12 hop => exact packA_fields hop rfl
  case h_14 hop => exact packXYN_fields hop rfl
  case h_4 hop | h_5 hop | h_7 hop | h_8 hop | h_13 hop => exact packXB_fields hop rfl

/-! The unknown words, by sub-decoder. -/

theorem decode0_eq_none {f : Fields} : decode0 f = none ↔ f.nnn ≠ 0x0E0 ∧ f.nnn ≠ 0x0EE := by
  unfold decode0
  split <;> simp_all

theorem decode8_eq_none {f : Fields} :
    decode8 f = none ↔ f.n ∉ ([0x0, 0x1, 0x2, 0x3, 0x4, 0x5, 0x6, 0x7, 0xE] : List Nibble) := by
  unfold decode8
  split <;> simp_all

/-- R99 lists the values of N that are left when the nine minor opcodes of R97 are taken away. -/
theorem minorOpcode_notMem (n : Nibble) :
    n ∉ ([0x0, 0x1, 0x2, 0x3, 0x4, 0x5, 0x6, 0x7, 0xE] : List Nibble)
      ↔ n ∈ ([0x8, 0x9, 0xA, 0xB, 0xC, 0xD, 0xF] : List Nibble) := by
  decide +revert

theorem decodeE_eq_none {f : Fields} : decodeE f = none ↔ f.nn ∉ ([0x9E, 0xA1] : List Byte) := by
  unfold decodeE
  split <;> simp_all

theorem decodeF_eq_none {f : Fields} :
    decodeF f = none ↔ f.nn ∉ ([0x07, 0x0A, 0x15, 0x18, 0x1E, 0x29, 0x33, 0x55, 0x65] : List Byte) := by
  unfold decodeF
  split <;> simp_all

/-- A word is unknown to the sub-decoder of its opcode, or is of the form `5xy_` or `9xy_` with a low nibble other than 0. -/
theorem decodeWord_eq_none :
    decodeWord w = none ↔
      ((fields w).op = 0x0 ∧ decode0 (fields w) = none)
      ∨ ((fields w).op = 0x5 ∧ (fields w).n ≠ 0)
      ∨ ((fields w).op = 0x9 ∧ (fields w).n ≠ 0)
      ∨ ((fields w).op = 0x8 ∧ decode8 (fields w) = none)
      ∨ ((fields w).op = 0xE ∧ decodeE (fields w) = none)
      ∨ ((fields w).op = 0xF ∧ decodeF (fields w) = none) := by
  simp only [decodeWord]
  split
  case h_17 => -- no opcode is left
    simp only [imp_false] at *
    bv_omega
  all_goals simp_all

/-! The opcode table. -/

/-- NN is read nibble by nibble as Y and N (R91). -/
theorem fields_nn_eq_iff (b : Byte) :
    (fields w).nn = b ↔ (fields w).y = b.extractLsb' 4 4 ∧ (fields w).n = b.extractLsb' 0 4 := by
  have hb := b.isLt
  simp only [fields, ← BitVec.toNat_inj, BitVec.extractLsb'_toNat, Nat.shiftRight_eq_div_pow]
  omega

/-- NNN is read nibble by nibble as X, Y and N (R91). -/
theorem fields_nnn_eq_iff (a : Addr12) :
    (fields w).nnn = a ↔ (fields w).x = a.extractLsb' 8 4 ∧ (fields w).y = a.extractLsb' 4 4
      ∧ (fields w).n = a.extractLsb' 0 4 := by
  have ha := a.isLt
  simp only [fields, ← BitVec.toNat_inj, BitVec.extractLsb'_toNat, Nat.shiftRight_eq_div_pow]
  omega

open Laws.EncodingFitsRow in
/-- The word of an instruction fits the instruction's row and no other: the laws of Laws/PerInstr, for all 34. -/
theorem rowMatches_encode (i : Instr) : Statement i := by
  cases i
  exacts [cls, ret, jp _, call _, seNN _ _, sneNN _ _, seVY _ _, ldNN _ _, addNN _ _, ldVY _ _, orVY _ _, andVY _ _,
    xorVY _ _, addVY _ _, sub _ _, shr _ _, subn _ _, shl _ _, sneVY _ _, ldI _, jpV0 _, rnd _ _, drw _ _ _, skp _,
    sknp _, ldVxDT _, ldVxK _, ldDTVx _, ldSTVx _, addI _, ldF _, ldB _, ldMemVx _, ldVxMem _]

theorem exists_row (i : Instr) : ∃ r ∈ opcodeTable, r.mnemonic = mnemonic i := by
  cases i <;> simp [opcodeTable, mnemonic]

/-- An unknown word fits none of its own opcode's rows, by its other nibbles, and no other row, by its opcode. -/
theorem rowMatches_of_unknown (h : decodeWord w = none) : ∀ r ∈ opcodeTable, rowMatches r w = false := by
  rw [decodeWord_eq_none, decode0_eq_none, decode8_eq_none, decodeE_eq_none, decodeF_eq_none] at h
  obtain ⟨hop, h⟩ | ⟨hop, h⟩ | ⟨hop, h⟩ | ⟨hop, h⟩ | ⟨hop, h⟩ | ⟨hop, h⟩ := h <;>
    simpa [opcodeTable, rowMatches, nibbleFits, hop, fields_nn_eq_iff, fields_nnn_eq_iff] using h

end Sys2Proof

namespace Sys2Proof.Machine

variable {s : State} (r : Refusal)

/-! No outcome is a refusal: an operation ends in a next state or in a fault. -/

/-- Every arm of the dispatcher has its meaning (R123). -/
theorem exec_ne_refused (i : Instr) : exec i s ≠ .refused r := by
  cases i with
  | ret | call | skp | sknp | ldVxK =>
    simp only [exec, execRet, execCall, execSkp, execSknp, execLdVxK]
    split <;> nofun
  | drw | ldB | ldMemVx | ldVxMem =>
    simp only [exec, execDrw_eq, execLdB_eq, execLdMemVx_eq, execLdVxMem_eq]
    split <;> nofun
  | _ => nofun

theorem instrStep_ne_refused : instrStep s ≠ .refused r := by
  obtain ⟨_, h⟩ | ⟨_, _, _, ⟨i, _, h⟩ | ⟨_, h⟩⟩ := instrStep_cases s
  · simp [h]
  · rw [h]
    exact exec_ne_refused r i
  · simp [h]

theorem pollCpu_ne_refused (now : Option Rat) : pollCpu now s ≠ .refused r := by
  rw [pollCpu]
  split
  · exact instrStep_ne_refused r
  · nofun

theorem performEvent_ne_refused (e : Event) : performEvent e s ≠ .refused r := by
  cases e with
  | instrStep => exact instrStep_ne_refused r
  | pollCpu now => exact pollCpu_ne_refused r now
  | _ => nofun

end Sys2Proof.Machine

namespace Sys2Proof.Proofs

open Sys2Proof.Machine

/-- Settles O2: the bytes of a word decode as the word, and the word of an instruction decodes to the instruction. -/
theorem decodeEncodeRoundTrip : Obligations.DecodeEncodeRoundTrip := by
  intro i rest _
  rw [encodeBytes, decode_wordBytes, decodeWord_encode]

/-- Settles O3, arm by arm of the decoder. -/
theorem encodeDecodeRoundTrip : Obligations.EncodeDecodeRoundTrip := fun _ _ => encode_of_decodeWord

/-- Settles O4: the sub-decoders name the sets of R99. -/
theorem unknownWordsAreExactly : Obligations.UnknownWordsAreExactly := by
  intro w
  rw [decodeWord_eq_none, decode0_eq_none, decode8_eq_none, minorOpcode_notMem, decodeE_eq_none,
    decodeF_eq_none]

/-- Settles O5: a word that decodes is an instruction's own, which fits one row, and an unknown word fits none. -/
theorem decodeAgreesWithOpcodeTable : Obligations.DecodeAgreesWithOpcodeTable := by
  intro w
  have hrow : ∀ i, decodeWord w = some i → ∀ r ∈ opcodeTable, rowMatches r w = true ↔ r.mnemonic = mnemonic i := by
    intro i h r hr
    rw [← encode_of_decodeWord h, rowMatches_encode i r hr, decide_eq_true_iff]
  refine ⟨⟨rowMatches_of_unknown, fun h => ?_⟩, hrow⟩
  cases hd : decodeWord w with
  | none => rfl
  | some i =>
    obtain ⟨r, hr, hm⟩ := exists_row i
    exact absurd ((hrow i hd r hr).2 hm) (by simp [h r hr])

/-- Settles O11: in FAULT a step answers the latched fault, and outside it performs an event. -/
theorem stepNeverRefuses : Obligations.StepNeverRefuses := by
  intro s r
  cases hf : s.fault with
  | some c => simp [step_fault hf]
  | none =>
    cases hi : s.inputs with
    | nil =>
      rw [step_instrStep s hf hi]
      exact instrStep_ne_refused r
    | cons e rest =>
      rw [step_event s hf hi]
      exact performEvent_ne_refused r e

/-- Settles O1, by running the decoder on each word. -/
theorem specWordsDecode : Obligations.SpecWordsDecode := by
  unfold Obligations.SpecWordsDecode
  decide

end Sys2Proof.Proofs

/-! PROOF. The cycle and the dispatch (`40_cycle_and_dispatch.md` R120 to R125): a step that fetches runs the word at
`pc`, and which instruction can raise which fault (`60_exceptions.md` R201). -/

namespace Sys2Proof.Machine

variable {s : State} {c : Fault}

/-! The cycle. -/

/-- An InstrStep has one condition for its fetch (R121). -/
theorem instrStep_eq (s : State) :
    instrStep s = if s.pc.toNat ≤ 4094 then runWord s.nextWord s else .fault (.memFault (max s.pc.toNat 4096)) := by
  rw [instrStep, State.readWord_eq]
  by_cases h : s.pc.toNat ≤ 4094
  · rw [if_pos h, if_pos h]
    rfl
  · rw [if_neg h, if_neg h]
    rfl

theorem runWord_of_some {w : Word} {i : Instr} (s : State) (hw : decodeWord w = some i) :
    runWord w s = exec i s.advance := by rw [runWord, hw]

theorem runWord_of_none {w : Word} (s : State) (hw : decodeWord w = none) :
    runWord w s = execUnknown w s.pc s.advance := by rw [runWord, hw]

/-- A step that fetches runs the word at `pc` (R120). -/
theorem State.Fetches.step_eq (h : s.Fetches) : step s = runWord s.nextWord s := by
  obtain ⟨hf, hi, hpc⟩ := h
  rw [step_instrStep s hf hi, instrStep_eq, if_pos hpc]

/-! The faults of instructions. -/

/-- What an instruction's fault says of the instruction and of the state it ran from: three of the causes of R201 have
instructions that raise them, and the other two have none. -/
inductive Raises (s : State) : Instr → Fault → Prop where
  | mem {i : Instr} (a : Nat) (ha : 4096 ≤ a) (hi : mnemonic i ∈ ["DRW", "LD_B", "LD_MEM_VX", "LD_VX_MEM"]) :
      Raises s i (.memFault a)
  | key {i : Instr} (v : Byte) (hv : 15 < v.toNat) (hi : mnemonic i ∈ ["SKP", "SKNP"]) :
      Raises s i (.keyIndexFault v.toNat)
  | overflow (nnn : Addr12) (hs : s.cfg.stackDepth = some s.stack.length) : Raises s (.call nnn) .stackOverflow

/-- A block access that faults does so past memory, wherever its condition fails (R62, R205). -/
theorem block_raises {i : Instr} {p : Prop} [Decidable p] {t : State} {a : Nat}
    (hi : mnemonic i ∈ ["DRW", "LD_B", "LD_MEM_VX", "LD_VX_MEM"])
    (h : (if p then .next t else .fault (.memFault (max a 4096)) : Result State) = .fault c) : Raises s i c := by
  split at h
  · cases h
  · obtain rfl := Host.Outcome.fault.inj h
    exact .mem _ (Nat.le_max_right a 4096) hi

/-- A byte that names no key raises with its own value (R193). -/
theorem keyIndex_raises {i : Instr} {v : Byte} (hi : mnemonic i ∈ ["SKP", "SKNP"]) (h : keyIndex v = .error c) :
    Raises s i c := by
  rw [keyIndex_eq] at h
  split at h
  case isTrue => cases h
  case isFalse hv =>
    obtain rfl := Except.error.inj h
    exact .key v (by omega) hi

theorem execCall_raises {nnn : Addr12} (h : execCall nnn s = .fault c) : Raises s (.call nnn) c := by
  by_cases hd : s.cfg.stackDepth = some s.stack.length
  · rw [execCall, State.push_full s s.pc hd] at h
    obtain rfl := Host.Outcome.fault.inj h
    exact .overflow nnn hd
  · rw [execCall, State.push_ok s s.pc hd] at h
    cases h

/-- An instruction that faults raises one of the causes R201 gives it; every other arm of the dispatcher answers a next
state, the return from an empty stack and the wait for a key included. -/
theorem exec_raises {i : Instr} (h : exec i s = .fault c) : Raises s i c := by
  cases i with
  | call nnn => exact execCall_raises h
  | skp x | sknp x =>
    simp only [exec, execSkp, execSknp] at h
    split at h
    case h_1 hk =>
      obtain rfl := Host.Outcome.fault.inj h
      exact keyIndex_raises (by simp [mnemonic]) hk
    case h_2 => cases h
  | drw x y n => exact block_raises (by simp [mnemonic]) ((execDrw_eq s x y n).symm.trans h)
  | ldB x => exact block_raises (by simp [mnemonic]) ((execLdB_eq s x).symm.trans h)
  | ldMemVx x => exact block_raises (by simp [mnemonic]) ((execLdMemVx_eq s x).symm.trans h)
  | ldVxMem x => exact block_raises (by simp [mnemonic]) ((execLdVxMem_eq s x).symm.trans h)
  | ret | ldVxK =>
    simp only [exec, execRet, execLdVxK] at h
    split at h <;> cases h
  | _ => cases h

end Sys2Proof.Machine

namespace Sys2Proof.Proofs

open Sys2Proof.Machine

/-- Settles O12, over the faults of R201 that instructions raise. -/
theorem instructionFaultCauses : Obligations.InstructionFaultCauses := by
  intro i s c h
  cases exec_raises h with
  | mem a ha hi => exact .inl ⟨a, rfl, ha, hi⟩
  | key v hv hi => exact .inr (.inl ⟨v.toNat, rfl, hv, by omega, hi⟩)
  | overflow nnn hs => exact .inr (.inr ⟨rfl, rfl, hs⟩)

/-- Settles O6: a step that fetches runs the word at `pc`, here an instruction's. -/
theorem stepRunsDecodedInstruction : Obligations.StepRunsDecodedInstruction :=
  fun s _ h hw => h.step_eq.trans (runWord_of_some s hw)

/-- Settles O7: a step that fetches runs the word at `pc`, here an unknown one. -/
theorem stepLogsUnknownWord : Obligations.StepLogsUnknownWord :=
  fun s h hw => h.step_eq.trans (runWord_of_none s hw)

/-- Settles O8: the fetch's fault is that of the first of its two addresses above 4095. -/
theorem fetchFaultsPastMemory : Obligations.FetchFaultsPastMemory := by
  intro s hf hi hpc
  have ha : max s.pc.toNat 4096 = if 4095 < s.pc.toNat then s.pc.toNat else 4096 := by split <;> omega
  rw [step_instrStep s hf hi, instrStep_eq, if_neg (by omega), ha]

end Sys2Proof.Proofs

/-! PROOF. Control transfer (`41_control_flow.md` R130 to R138): the return, the jumps, the call and the skips. -/

namespace Sys2Proof

/-- A skip of registers with a low nibble other than 0 is no instruction (`30_encoding.md` R99). -/
theorem decodeWord_packXYN_eq_none {op n : Nibble} (hop : op = 0x5 ∨ op = 0x9) (hn : n ≠ 0) (x y : Nibble) :
    decodeWord (packXYN op x y n) = none := by
  obtain ⟨fop, _, _, fn⟩ := fields_packXYN op x y n
  rw [decodeWord_eq_none, fop, fn]
  obtain rfl | rfl := hop
  · exact .inr (.inl ⟨rfl, hn⟩)
  · exact .inr (.inr (.inl ⟨rfl, hn⟩))

end Sys2Proof

namespace Sys2Proof.Machine

variable (s : State)

/-! The targets as numbers. -/

@[simp] theorem zextAddr_toNat (nnn : Addr12) : (zextAddr nnn).toNat = nnn.toNat :=
  BitVec.toNat_setWidth_of_le (by decide)

@[simp] theorem zextByte_toNat (b : Byte) : (zextByte b).toNat = b.toNat :=
  BitVec.toNat_setWidth_of_le (by decide)

/-- The sum of `Bnnn` is that of the numbers: it is far below 65536. -/
theorem jumpV0_target_toNat (nnn : Addr12) (b : Byte) :
    (zextAddr nnn + zextByte b).toNat = nnn.toNat + b.toNat := by
  have hnnn := nnn.isLt
  have hb := b.isLt
  rw [BitVec.toNat_add, zextAddr_toNat, zextByte_toNat]
  omega

/-! The return and the call, by the state of the stack. -/

theorem execRet_cons {v : Word} {l : List Word} (h : s.stack = v :: l) :
    execRet s = .next { s with pc := v, stack := l } := by
  rw [execRet, State.pop_cons s h]
  rfl

theorem execRet_nil (h : s.stack = []) : execRet s = .next s := by
  rw [execRet, State.pop_nil s h]

theorem execCall_ok (nnn : Addr12) (h : s.cfg.stackDepth ≠ some s.stack.length) :
    execCall nnn s = .next { s with pc := zextAddr nnn, stack := s.pc :: s.stack } := by
  rw [execCall, State.push_ok s s.pc h]
  rfl

theorem execCall_full (nnn : Addr12) (h : s.cfg.stackDepth = some s.stack.length) :
    execCall nnn s = .fault .stackOverflow := by
  rw [execCall, State.push_full s s.pc h]
  rfl

/-- A skip, with its test read as the proposition it decides. -/
theorem State.skipIf_eq_ite {b : Bool} {p : Prop} [Decidable p] (h : b = true ↔ p) :
    s.skipIf b = if p then { s with pc := s.pc + 2 } else s := by
  rw [State.skipIf, State.advance_eq]
  exact if_congr h rfl rfl

end Sys2Proof.Machine

namespace Sys2Proof.Proofs

open Sys2Proof.Machine

/-- Settles O27, by whether the stack is empty. -/
theorem returnPopsTheStack : Obligations.ReturnPopsTheStack :=
  fun s => ⟨fun _ _ hs => execRet_cons s hs, fun hs => execRet_nil s hs⟩

/-- Settles O28: widening NNN keeps its value. -/
theorem jumpSetsPc : Obligations.JumpSetsPc :=
  fun s nnn => ⟨s.setPc (zextAddr nnn), rfl, rfl, zextAddr_toNat nnn⟩

/-- Settles O29: the push succeeds and leaves `pc` for the jump to write. -/
theorem callPushesReturnAddress : Obligations.CallPushesReturnAddress :=
  fun s nnn hd => ⟨_, execCall_ok s nnn hd, rfl, zextAddr_toNat nnn⟩

/-- Settles O30: the push is refused. -/
theorem callOverflowsFullStack : Obligations.CallOverflowsFullStack := execCall_full

/-- Settles O31: the sum of a 12-bit and an 8-bit number does not reach the width of `pc`. -/
theorem jumpV0AddsWithoutMask : Obligations.JumpV0AddsWithoutMask :=
  fun s nnn => ⟨s.setPc (zextAddr nnn + zextByte (s.getReg 0)), rfl, rfl, jumpV0_target_toNat nnn (s.getReg 0)⟩

/-- Settles O32: a skip for each test, and the low nibble is the one R99 leaves unknown. -/
theorem skipsAdvancePc : Obligations.SkipsAdvancePc := by
  intro s x y nn
  refine ⟨?_, ?_, ?_, ?_, fun n hn => ⟨?_, ?_⟩⟩
  · exact congrArg _ (s.skipIf_eq_ite beq_iff_eq)
  · exact congrArg _ (s.skipIf_eq_ite bne_iff_ne)
  · exact congrArg _ (s.skipIf_eq_ite beq_iff_eq)
  · exact congrArg _ (s.skipIf_eq_ite bne_iff_ne)
  · exact decodeWord_packXYN_eq_none (.inl rfl) hn x y
  · exact decodeWord_packXYN_eq_none (.inr rfl) hn x y

end Sys2Proof.Proofs

/-! PROOF. Register load, arithmetic, logic, shift and random (`42_load_alu.md` R150 to R163). Each instruction ends in
one write of Vx, or in one write of a result and its flag; the frame and the reads of the two writes are said once. -/

namespace Sys2Proof.Machine

variable (s : State)

/-! The frames of the two writes. -/

theorem OnlyRegs.setReg (x : Nibble) (v : Byte) : OnlyRegs s (s.setReg x v) [x] :=
  ⟨rfl, fun _ hr => State.getReg_setReg_ne s (List.ne_of_not_mem_cons hr) v⟩

theorem OnlyRegs.setResultAndFlag (x : Nibble) (v : Byte) (b : Bool) :
    OnlyRegs s (s.setResultAndFlag x v b) [x, 15] := by
  refine ⟨State.setResultAndFlag_frame s x v b, fun r hr => ?_⟩
  obtain ⟨hx, hf⟩ : r ≠ x ∧ r ≠ 15 := by simpa using hr
  rw [State.setResultAndFlag_getReg s x r v b hf, if_neg hx]

/-- A result outside VF survives the write of its flag (D4). -/
theorem State.setResultAndFlag_getReg_self {x : Nibble} (hx : x ≠ 15) (v : Byte) (b : Bool) :
    (s.setResultAndFlag x v b).getReg x = v :=
  (State.setResultAndFlag_getReg s x x v b hx).trans (if_pos rfl)

/-! Flags as the tests and the numbers they record. -/

theorem flagByte_decide (p : Prop) [Decidable p] : flagByte (decide p) = if p then 1 else 0 :=
  if_congr decide_eq_true_iff rfl rfl

@[simp] theorem flagByte_toNat (b : Bool) : (flagByte b).toNat = b.toNat := by
  cases b with
  | false => rfl
  | true => rfl

@[simp] theorem bitOutRight_toNat (v : Byte) : (bitOutRight v).toNat = v.toNat % 2 := by
  rw [bitOutRight, BitVec.getLsbD, Nat.toNat_testBit, pow_zero, Nat.div_one]

/-- Above bit 7 a byte has no bit, so that the quotient by 128 is bit 7. -/
@[simp] theorem bitOutLeft_toNat (v : Byte) : (bitOutLeft v).toNat = v.toNat / 128 := by
  have hv := v.isLt
  rw [bitOutLeft, BitVec.getLsbD, Nat.toNat_testBit]
  omega

/-! Results as numbers. -/

/-- A difference of bytes with 256 borrowed before the subtraction, as R158 and R160 have it modulo 256. -/
theorem byte_sub_toNat (p q : Byte) : (p - q).toNat = (p.toNat + 256 - q.toNat) % 256 := by
  bv_omega

theorem byte_shiftRight_one_toNat (v : Byte) : (v >>> 1).toNat = v.toNat / 2 := by
  rw [BitVec.toNat_ushiftRight, Nat.shiftRight_eq_div_pow, pow_one]

theorem byte_shiftLeft_one_toNat (v : Byte) : (v <<< 1).toNat = v.toNat * 2 % 256 := by
  rw [BitVec.toNat_shiftLeft, Nat.shiftLeft_eq, pow_one]

/-- The source of a shift is the byte that SHIFT_SRC selects, in each of its two values (D3). -/
theorem State.shiftSource_eq {x y : Nibble} {v : Byte} (hx : s.cfg.shiftSrc = .vx → v = s.getReg x)
    (hy : s.cfg.shiftSrc = .vy → v = s.getReg y) : s.shiftSource x y = v := by
  unfold State.shiftSource
  split
  case h_1 h => exact (hx h).symm
  case h_2 h => exact (hy h).symm

end Sys2Proof.Machine

namespace Sys2Proof.Proofs

open Sys2Proof.Machine

/-- Settles O33: each is one write of Vx. -/
theorem loadsSetOneRegister : Obligations.LoadsSetOneRegister := fun s x y nn =>
  ⟨⟨_, rfl, .setReg s x nn, State.getReg_setReg_self s x nn⟩,
    ⟨_, rfl, .setReg s x (s.getReg y), State.getReg_setReg_self s x (s.getReg y)⟩⟩

/-- Settles O34: the sum of two bytes is the sum of the numbers modulo 256. -/
theorem addImmediateWraps : Obligations.AddImmediateWraps := by
  intro s x nn
  refine ⟨_, rfl, .setReg s x _, ?_⟩
  rw [State.getReg_setReg_self, BitVec.toNat_add]

/-- Settles O35, bit by bit of the value written to Vx. -/
theorem logicIsBitwise : Obligations.LogicIsBitwise := by
  intro s x y
  refine ⟨⟨_, rfl, .setReg s x _, fun k _ => ?_⟩, ⟨_, rfl, .setReg s x _, fun k _ => ?_⟩,
    ⟨_, rfl, .setReg s x _, fun k _ => ?_⟩⟩
  · rw [State.getReg_setReg_self, BitVec.getLsbD_or]
  · rw [State.getReg_setReg_self, BitVec.getLsbD_and]
  · rw [State.getReg_setReg_self, BitVec.getLsbD_xor]

/-- Settles O36: the sum stays in Vx unless the flag takes its place. -/
theorem addSetsCarry : Obligations.AddSetsCarry := by
  intro s x y
  refine ⟨_, rfl, .setResultAndFlag s x _ _, fun hx => ?_, ?_⟩
  · rw [State.setResultAndFlag_getReg_self s hx, BitVec.toNat_add]
  · rw [State.setResultAndFlag_VF, carry, flagByte_decide]

/-- Settles O37: the two subtractions differ in the order of their operands. -/
theorem subtractsSetNotBorrow : Obligations.SubtractsSetNotBorrow := by
  intro s x y
  refine ⟨⟨_, rfl, .setResultAndFlag s x _ _, fun hx => ?_, ?_⟩,
    ⟨_, rfl, .setResultAndFlag s x _ _, fun hx => ?_, ?_⟩⟩
  · rw [State.setResultAndFlag_getReg_self s hx, byte_sub_toNat]
  · rw [State.setResultAndFlag_VF, notBorrow, flagByte_decide]
  · rw [State.setResultAndFlag_getReg_self s hx, byte_sub_toNat]
  · rw [State.setResultAndFlag_VF, notBorrow, flagByte_decide]

/-- Settles O38: both shifts read the byte that SHIFT_SRC selects, and the flag is its bit that the result lacks. -/
theorem shiftsSetBitOut : Obligations.ShiftsSetBitOut := by
  intro s x y v hvx hvy
  obtain rfl := s.shiftSource_eq hvx hvy
  refine ⟨⟨_, rfl, .setResultAndFlag s x _ _, fun hx => ?_, ?_⟩,
    ⟨_, rfl, .setResultAndFlag s x _ _, fun hx => ?_, ?_⟩⟩
  · rw [State.setResultAndFlag_getReg_self s hx, byte_shiftRight_one_toNat]
  · rw [State.setResultAndFlag_VF, flagByte_toNat, bitOutRight_toNat]
  · rw [State.setResultAndFlag_getReg_self s hx, byte_shiftLeft_one_toNat]
  · rw [State.setResultAndFlag_VF, flagByte_toNat, bitOutLeft_toNat]

/-- Settles O39: the draw is counted, then Vx is written; a mask keeps no bit that it lacks. -/
theorem randomIsMaskedAndDrawnAnew : Obligations.RandomIsMaskedAndDrawnAnew := by
  intro s x nn
  have hread := State.getReg_setReg_self s.countDraw x (s.randomByte &&& nn)
  refine ⟨_, rfl, rfl, fun r hr => State.getReg_setReg_ne s.countDraw hr _, hread, fun k _ hk => ?_⟩
  rw [hread, BitVec.getLsbD_and, hk, Bool.and_false]

end Sys2Proof.Proofs

/-! PROOF. Index register and memory (`43_index_memory.md` R170 to R176). The loads of `I` are numbers that fit its
width; the stores are pokes of a list of bytes, and the block load is a write of a list of bytes to the registers. -/

namespace Sys2Proof.Machine

variable (s : State)

/-! The lists of bytes, once stored and once loaded. -/

theorem OnlyBytes.pokeBytes (a : Nat) {bs : List Byte} {n : Nat} (hl : bs.length = n) :
    OnlyBytes s (s.pokeBytes a bs) a n :=
  ⟨s.pokeBytes_frame a bs, fun b hb => by rw [State.peek_pokeBytes, hl, if_neg hb]⟩

/-- A stored list is read back from its base up. -/
theorem State.peek_pokeBytes_add (a : Nat) {bs : List Byte} {k : Nat} (hk : k < bs.length) :
    (s.pokeBytes a bs).peek (a + k) = bs.getD k 0 := by
  rw [State.peek_pokeBytes, if_pos (by omega), Nat.add_sub_cancel_left]

/-- A list loaded from V0 up is read back by register number. -/
theorem State.getReg_setRegsFrom_zero {bs : List Byte} (hl : bs.length ≤ 16) {r : Nibble} (hr : r.toNat < bs.length) :
    (s.setRegsFrom 0 bs).getReg r = bs.getD r.toNat 0 := by
  rw [State.setRegsFrom_getReg s 0 bs (by omega), if_pos (by omega), Nat.sub_zero]

theorem State.firstRegs_getD_toNat {n : Nat} {r : Nibble} (hr : r.toNat < n) :
    (s.firstRegs n).getD r.toNat 0 = s.getReg r := by
  rw [State.firstRegs_getD s n r.toNat hr, BitVec.ofNat_toNat, BitVec.setWidth_eq]

/-! Values as numbers. -/

/-- The mask of R173 is the remainder by 16, and the address is far below 65536. -/
theorem glyphAddress_toNat (v : Byte) : (glyphAddress v).toNat = 0x050 + (v &&& 0x0F).toNat * 5 := by
  have hmask : (v &&& 0x0F).toNat = v.toNat % 16 := Nat.and_two_pow_sub_one_eq_mod v.toNat 4
  rw [hmask, glyphAddress, BitVec.toNat_ofNat]
  omega

/-- Each decimal digit fits a byte. -/
theorem bcdDigits_toNat (v : Byte) :
    (bcdDigits v).map BitVec.toNat = [v.toNat / 100, v.toNat / 10 % 10, v.toNat % 10] := by
  have hv := v.isLt
  have hdigit {d : Nat} (hd : d < 10) : d % 2 ^ 8 = d := Nat.mod_eq_of_lt (by omega)
  simp only [bcdDigits, List.map_cons, List.map_nil, BitVec.toNat_ofNat]
  rw [hdigit (by omega), hdigit (by omega), hdigit (by omega)]

/-- A stored digit of R174, by its place. -/
theorem State.peek_pokeBytes_bcdDigits (a : Nat) (v : Byte) {k : Nat} (hk : k < 3) :
    ((s.pokeBytes a (bcdDigits v)).peek (a + k)).toNat = [v.toNat / 100, v.toNat / 10 % 10, v.toNat % 10].getD k 0 := by
  rw [State.peek_pokeBytes_add s a hk, ← bcdDigits_toNat]
  exact (List.getD_map (bcdDigits v) 0 BitVec.toNat).symm

end Sys2Proof.Machine

namespace Sys2Proof.Proofs

open Sys2Proof.Machine

/-- Settles O40: NNN and the glyph's address fit the width of `I`. -/
theorem indexLoads : Obligations.IndexLoads := fun s x nnn =>
  ⟨⟨_, rfl, rfl, zextAddr_toNat nnn⟩, ⟨_, rfl, rfl, glyphAddress_toNat (s.getReg x)⟩⟩

/-- Settles O41: the sum of two words is the sum of the numbers modulo 65536. -/
theorem indexAddWraps : Obligations.IndexAddWraps := by
  intro s x
  refine ⟨s.setI (s.I + zextByte (s.getReg x)), rfl, rfl, ?_⟩
  rw [State.setI_I, BitVec.toNat_add, zextByte_toNat]

/-- Settles O42: the three digits are poked at `I` and read back by their places. -/
theorem bcdStoresDigits : Obligations.BcdStoresDigits := by
  intro s x h
  have hdigit {k : Nat} (hk : k < 3) := s.peek_pokeBytes_bcdDigits s.I.toNat (s.getReg x) hk
  exact ⟨_, (execLdB_eq s x).trans (if_pos h), .pokeBytes s _ rfl,
    hdigit (k := 0) (by decide), hdigit (k := 1) (by decide), hdigit (k := 2) (by decide)⟩

/-- Settles O43: the block poked at `I` holds V0 to Vx in order. -/
theorem blockStoreCopiesRegisters : Obligations.BlockStoreCopiesRegisters := by
  intro s x h
  have hl : (s.firstRegs (x.toNat + 1)).length = x.toNat + 1 := s.firstRegs_length _
  refine ⟨_, (execLdMemVx_eq s x).trans (if_pos h), .pokeBytes s _ hl, fun r hr => ?_⟩
  rw [State.peek_pokeBytes_add s _ (by omega), State.firstRegs_getD_toNat s (by omega)]

/-- Settles O44: the block read from `I` is written to V0 up to Vx, and the registers above are not reached. -/
theorem blockLoadCopiesMemory : Obligations.BlockLoadCopiesMemory := by
  intro s x h
  have hx := x.isLt
  have hl : ((List.range (x.toNat + 1)).map fun k => s.peek (s.I.toNat + k)).length = x.toNat + 1 := by simp
  refine ⟨_, (execLdVxMem_eq s x).trans (if_pos h), s.setRegsFrom_frame 0 _, fun r hr => ?_,
    fun r hr => State.setRegsFrom_getReg_above hl hr⟩
  rw [State.getReg_setRegsFrom_zero s (by omega) (by omega), List.getD_eq_getElem _ _ (by omega), List.getElem_map,
    List.getElem_range]

end Sys2Proof.Proofs

/-! PROOF. Display (`44_display.md` R180 to R184). A draw is a sequence of plotted pixels. What a sequence does to the
display and to the collision is said of the set of cells it inverts, its picture; pictures that share no cell combine, so
the picture of a draw is built up from its pixels to its rows to the sprite. -/

namespace Sys2Proof.Machine

/-- Drawing the picture `p` takes the display and collision `g` to `g'`: the cells of the picture are inverted and no other,
and a cell of the picture that was set is a collision (R182, R184). -/
structure Plotted (p : Fin 32 → Fin 64 → Bool) (g g' : Grid × Bool) : Prop where
  cell : ∀ r c, g'.1[r][c] = (g.1[r][c] ^^ p r c)
  collision : g'.2 = true ↔ g.2 = true ∨ ∃ r c, p r c = true ∧ g.1[r][c] = true

/-- The pixel at row `yy` and column `xx`, drawn if its sprite bit `b` is set; past the grid it has no cell. -/
def pixelPicture (yy xx : Nat) (b : Bool) (r : Fin 32) (c : Fin 64) : Bool :=
  b && decide (r.val = yy ∧ c.val = xx)

/-- The first `w` columns of the sprite bytes `bs`, with the origin at row `yy` and column `x0` (R180). -/
def bytesPicture (yy x0 w : Nat) (bs : List Byte) (r : Fin 32) (c : Fin 64) : Bool :=
  decide (yy ≤ r.val ∧ r.val < yy + bs.length) && decide (x0 ≤ c.val ∧ c.val < x0 + w)
    && (bs.getD (r.val - yy) 0).getLsbD (7 - (c.val - x0))

variable {p q : Fin 32 → Fin 64 → Bool} {g g' g'' : Grid × Bool}

/-! Pictures without a cell, and pictures that share none. -/

theorem Plotted.refl (hp : ∀ r c, p r c = false) : Plotted p g g :=
  ⟨fun r c => by rw [hp, Bool.xor_false], by simp [hp]⟩

/-- A cell of the second picture is not in the first, so the second draw finds it as the first one did. -/
theorem Plotted.trans (hp : Plotted p g g') (hq : Plotted q g' g'') (hd : ∀ r c, p r c = true → q r c = false) :
    Plotted (fun r c => p r c || q r c) g g'' := by
  refine ⟨fun r c => ?_, ?_⟩
  · rw [hq.cell, hp.cell]
    cases h : p r c with
    | false => rw [Bool.xor_false, Bool.false_or]
    | true => rw [hd r c h, Bool.xor_false, Bool.or_false]
  · have hsame (r c) (h : q r c = true) : g'.1[r][c] = g.1[r][c] := by
      have hpf : p r c = false := Bool.eq_false_iff.2 fun hpt => Bool.false_ne_true ((hd r c hpt).symm.trans h)
      rw [hp.cell, hpf, Bool.xor_false]
    have hfind : (∃ r c, q r c = true ∧ g'.1[r][c] = true) ↔ ∃ r c, q r c = true ∧ g.1[r][c] = true :=
      exists₂_congr fun r c => and_congr_right fun h => by rw [hsame r c h]
    rw [hq.collision, hfind, hp.collision, or_assoc]
    simp only [Bool.or_eq_true, or_and_right, exists_or]

/-! The picture of a pixel, of a row and of a list of rows. -/

theorem pixelPicture_outside {yy xx : Nat} {b : Bool} {r : Fin 32} {c : Fin 64} (h : ¬(r.val = yy ∧ c.val = xx)) :
    pixelPicture yy xx b r c = false := by
  rw [pixelPicture, decide_eq_false h, Bool.and_false]

theorem plotted_pixel (yy xx : Nat) (b : Bool) (g : Grid × Bool) :
    Plotted (pixelPicture yy xx b) g (if b then plotPixel yy xx g else g) := by
  cases b with
  | false => exact .refl fun r c => rfl
  | true =>
    rw [if_pos rfl]
    by_cases h : yy < 32 ∧ xx < 64
    · refine ⟨fun r c => ?_, ?_⟩
      · rw [plotPixel_cell h]
        by_cases hc : r.val = yy ∧ c.val = xx
        · rw [if_pos hc, pixelPicture, decide_eq_true hc, Bool.and_true, Bool.xor_true]
        · rw [if_neg hc, pixelPicture_outside hc, Bool.xor_false]
      · obtain ⟨hy, hx⟩ := h
        rw [plotPixel_collision ⟨hy, hx⟩, Bool.or_eq_true]
        refine or_congr_right ⟨fun hg => ⟨⟨yy, hy⟩, ⟨xx, hx⟩, by simp [pixelPicture], hg⟩, ?_⟩
        rintro ⟨r, c, hp, hg⟩
        obtain ⟨rfl, rfl⟩ : r.val = yy ∧ c.val = xx := by simpa [pixelPicture] using hp
        exact hg
    · rw [plotPixel_clipped h]
      exact .refl fun r c => pixelPicture_outside (by omega)

theorem mem_of_bytesPicture {yy x0 w : Nat} {bs : List Byte} {r : Fin 32} {c : Fin 64}
    (h : bytesPicture yy x0 w bs r c = true) :
    (yy ≤ r.val ∧ r.val < yy + bs.length) ∧ x0 ≤ c.val ∧ c.val < x0 + w := by
  simp only [bytesPicture, Bool.and_eq_true, decide_eq_true_eq] at h
  exact h.1

theorem bytesPicture_outside {yy x0 w : Nat} {bs : List Byte} {r : Fin 32} {c : Fin 64}
    (h : ¬((yy ≤ r.val ∧ r.val < yy + bs.length) ∧ x0 ≤ c.val ∧ c.val < x0 + w)) :
    bytesPicture yy x0 w bs r c = false :=
  Bool.eq_false_iff.2 fun hb => h (mem_of_bytesPicture hb)

/-- A further column is one more pixel: bit `7 - w` of the byte (R180). -/
theorem bytesPicture_width_succ (yy x0 w : Nat) (b : Byte) (r : Fin 32) (c : Fin 64) :
    bytesPicture yy x0 (w + 1) [b] r c
      = (bytesPicture yy x0 w [b] r c || pixelPicture yy (x0 + w) (b.getLsbD (7 - w)) r c) := by
  by_cases hc : c.val = x0 + w
  · rw [bytesPicture_outside (w := w) (by omega)]
    by_cases hr : r.val = yy
    · simp [bytesPicture, pixelPicture, hr, hc]
    · rw [bytesPicture_outside (by rw [List.length_singleton]; omega)]
      simp [pixelPicture, hr]
  · have hlt : c.val < x0 + (w + 1) ↔ c.val < x0 + w := by omega
    simp [bytesPicture, pixelPicture, hc, hlt]

/-- The first byte is the top row, and the others are drawn one row below. -/
theorem bytesPicture_cons (yy x0 w : Nat) (b : Byte) (bs : List Byte) (r : Fin 32) (c : Fin 64) :
    bytesPicture yy x0 w (b :: bs) r c
      = (bytesPicture yy x0 w [b] r c || bytesPicture (yy + 1) x0 w bs r c) := by
  by_cases hr : r.val ≤ yy
  · rw [bytesPicture_outside (yy := yy + 1) (by omega), Bool.or_false]
    by_cases he : r.val = yy
    · simp [bytesPicture, he]
    · rw [bytesPicture_outside (by omega), bytesPicture_outside (by omega)]
  · rw [bytesPicture_outside (bs := [b]) (by rw [List.length_singleton]; omega), Bool.false_or]
    have hsub : r.val - yy = (r.val - (yy + 1)) + 1 := by omega
    have hrows : yy ≤ r.val ∧ r.val < yy + (bs.length + 1) ↔ yy + 1 ≤ r.val ∧ r.val < yy + 1 + bs.length := by omega
    simp only [bytesPicture, List.length_cons, hrows, hsub, List.getD_cons_succ]

/-- The pixels of one byte are drawn from left to right (R180). -/
theorem plotted_columns (yy x0 w : Nat) (b : Byte) (g : Grid × Bool) :
    Plotted (bytesPicture yy x0 w [b]) g
      ((List.range w).foldl (fun g c => if b.getLsbD (7 - c) then plotPixel yy (x0 + c) g else g) g) := by
  induction w with
  | zero => exact .refl fun r c => bytesPicture_outside (by omega)
  | succ w ih =>
    rw [List.range_succ, List.foldl_append, funext₂ (bytesPicture_width_succ yy x0 w b)]
    refine ih.trans (plotted_pixel yy (x0 + w) (b.getLsbD (7 - w)) _) fun r c h => ?_
    have hmem := mem_of_bytesPicture h
    exact pixelPicture_outside (by omega)

theorem plotted_row (yy x0 : Nat) (b : Byte) (g : Grid × Bool) :
    Plotted (bytesPicture yy x0 8 [b]) g (drawRow yy x0 b g) :=
  plotted_columns yy x0 8 b g

theorem plotted_rows (yy x0 : Nat) (bs : List Byte) (g : Grid × Bool) :
    Plotted (bytesPicture yy x0 8 bs) g (drawRows yy x0 bs g) := by
  induction bs generalizing yy g with
  | nil => exact .refl fun r c => bytesPicture_outside (by rw [List.length_nil]; omega)
  | cons b bs ih =>
    rw [drawRows, funext₂ (bytesPicture_cons yy x0 8 b bs)]
    refine (plotted_row yy x0 b g).trans (ih (yy + 1) _) fun r c h => ?_
    have hmem := mem_of_bytesPicture h
    rw [List.length_singleton] at hmem
    exact bytesPicture_outside (by omega)

/-! A draw from a state. -/

section

variable (s : State) (x y n : Nibble)

/-- The display and the collision that a draw leaves. -/
def State.drawing : Grid × Bool :=
  drawRows (originRow (s.getReg y)) (originColumn (s.getReg x)) (spriteRows s n) (s.disp, false)

/-- The state that a draw leaves when it leaves the display and the collision `g`. -/
def State.drawn (g : Grid × Bool) : State := ((s.setDisp g.1).setVF g.2).emit .redraw

/-- The picture of the bytes read at `I`, at the reduced origin, is the sprite's (R182, R183). -/
theorem bytesPicture_spriteRows (r : Fin 32) (c : Fin 64) :
    bytesPicture (originRow (s.getReg y)) (originColumn (s.getReg x)) 8 (spriteRows s n) r c = spriteBit s x y n r c := by
  have hl : (spriteRows s n).length = n.toNat := by rw [spriteRows, List.length_map, List.length_range]
  rw [bytesPicture, spriteBit, hl, originRow, originColumn]
  by_cases hr : (s.getReg y).toNat % 32 ≤ r.val ∧ r.val < (s.getReg y).toNat % 32 + n.toNat
  · rw [List.getD_eq_getElem _ _ (by omega)]
    simp only [spriteRows, List.getElem_map, List.getElem_range]
  · simp only [decide_eq_false hr, Bool.false_and]

theorem plotted_drawing : Plotted (spriteBit s x y n) (s.disp, false) (s.drawing x y n) := by
  rw [← funext₂ (bytesPicture_spriteRows s x y n)]
  exact plotted_rows ..

theorem State.drawing_collision :
    (s.drawing x y n).2 = true ↔ ∃ r c, spriteBit s x y n r c = true ∧ s.pixel r c = true := by
  rw [(plotted_drawing s x y n).collision]
  exact or_iff_right Bool.false_ne_true

theorem State.drawn_pixel (r : Fin 32) (c : Fin 64) :
    (s.drawn (s.drawing x y n)).pixel r c = (s.pixel r c ^^ spriteBit s x y n r c) :=
  (plotted_drawing s x y n).cell r c

theorem State.drawn_VF (g : Grid × Bool) : (s.drawn g).getReg 15 = flagByte g.2 :=
  State.getReg_setReg_self (s.setDisp g.1) 15 (flagByte g.2)

/-- A draw keeps `I` and memory, so the sprite after it is the same where the origin is (VF may be a coordinate). -/
theorem spriteBit_drawn {g : Grid × Bool} (hx : (s.drawn g).getReg x = s.getReg x)
    (hy : (s.drawn g).getReg y = s.getReg y) : spriteBit (s.drawn g) x y n = spriteBit s x y n := by
  funext r c
  rw [spriteBit, hx, hy]
  rfl

variable {s n}

theorem exec_drw (h : n = 0 ∨ s.I.toNat + n.toNat ≤ 4096) : exec (.drw x y n) s = .next (s.drawn (s.drawing x y n)) :=
  (execDrw_eq s x y n).trans (if_pos h)

/-- A draw completes only with its bytes in memory. -/
theorem exec_drw_fits {t : State} (ht : exec (.drw x y n) s = .next t) : n = 0 ∨ s.I.toNat + n.toNat ≤ 4096 := by
  by_contra h
  rw [exec, execDrw_eq, if_neg h] at ht
  cases ht

end

theorem flagByte_eq_one {b : Bool} : flagByte b = 1 ↔ b = true := by
  cases b <;> decide

theorem flagByte_eq_zero {b : Bool} : flagByte b = 0 ↔ b = false := by
  cases b <;> decide

end Sys2Proof.Machine

namespace Sys2Proof.Proofs

open Sys2Proof.Machine

/-- Settles O48: `00E0` is one replacement of the display. -/
theorem clearMakesEveryCellFalse : Obligations.ClearMakesEveryCellFalse := fun _ =>
  ⟨_, rfl, rfl, clearGrid_get⟩

/-- Settles O49: the draw plots the sprite's picture on the display, from no collision. -/
theorem drawInvertsSpriteCells : Obligations.DrawInvertsSpriteCells := by
  intro s x y n h
  refine ⟨_, exec_drw x y h, rfl, fun r hr => State.getReg_setReg_ne (s.setDisp _) hr _, s.drawn_pixel x y n,
    fun hhit => ?_, fun hmiss => ?_⟩
  · rw [State.drawn_VF, flagByte_eq_one, State.drawing_collision]
    exact hhit
  · rw [State.drawn_VF, flagByte_eq_zero, Bool.eq_false_iff, Ne, State.drawing_collision]
    rintro ⟨r, c, hsprite, hset⟩
    exact Bool.false_ne_true ((hmiss r c hsprite).symm.trans hset)

/-- Settles O50: the second draw plots the same picture, so each of its cells is inverted twice, and it finds set exactly
those that the first draw found clear. -/
theorem drawTwiceRestores : Obligations.DrawTwiceRestores := by
  intro s t x y n ht hx hy
  have hfits := exec_drw_fits x y ht
  obtain rfl := Host.Outcome.next.inj ((exec_drw x y hfits).symm.trans ht)
  have hsame := spriteBit_drawn s x y n hx hy
  refine ⟨_, exec_drw x y hfits, fun r c => ?_, ?_⟩
  · rw [State.drawn_pixel, hsame, State.drawn_pixel, Bool.xor_assoc, Bool.xor_self, Bool.xor_false]
  · rw [State.drawn_VF, flagByte_eq_one, State.drawing_collision, hsame]
    refine exists₂_congr fun r c => and_congr_right fun hsprite => ?_
    rw [State.drawn_pixel, hsprite, Bool.xor_true, Bool.not_eq_true']

end Sys2Proof.Proofs

/-! PROOF. Keypad and timers (`45_keypad_timers.md` R190 to R196). The key a byte names, the least key that is down and the
two ends of the wait are said once; a timer instruction is one write of one byte. -/

namespace Sys2Proof.Machine

variable (s : State)

/-! The key a byte names. -/

theorem keyIndex_of_toNat_eq {v : Byte} {k : Nibble} (h : v.toNat = k.toNat) : keyIndex v = .ok k := by
  have hk := k.isLt
  rw [keyIndex_eq, if_pos (by omega), h, BitVec.ofNat_toNat, BitVec.setWidth_eq]

theorem keyIndex_of_gt {v : Byte} (h : 15 < v.toNat) : keyIndex v = .error (.keyIndexFault v.toNat) := by
  rw [keyIndex_eq, if_neg (by omega)]

/-! The wait for a key. -/

/-- The latch determines the least key that is down: of two of them neither is below the other (R32). -/
theorem State.lowestKey_eq_some {k : Nibble} (hk : s.keyDown k = true)
    (hleast : ∀ j : Nibble, j.toNat < k.toNat → s.keyDown j = false) : s.lowestKey = some k := by
  cases h : s.lowestKey with
  | none =>
    have hup := s.lowestKey_eq_none.mp h k
    exact absurd hk (Bool.eq_false_iff.mp hup)
  | some j =>
    have hj := s.lowestKey_down h
    obtain hlt | heq | hgt := Nat.lt_trichotomy j.toNat k.toNat
    · exact absurd hj (Bool.eq_false_iff.mp (hleast j hlt))
    · rw [BitVec.eq_of_toNat_eq heq]
    · exact absurd hk (Bool.eq_false_iff.mp (s.lowestKey_least h k hgt))

theorem execLdVxK_none (x : Nibble) (h : ∀ k, s.keyDown k = false) : execLdVxK x s = .next s.rewind := by
  rw [execLdVxK, s.lowestKey_eq_none.mpr h]

theorem execLdVxK_some (x : Nibble) {k : Nibble} (h : s.lowestKey = some k) :
    execLdVxK x s = .next (s.setReg x (k.setWidth 8)) := by
  rw [execLdVxK, h]

end Sys2Proof.Machine

namespace Sys2Proof.Proofs

open Sys2Proof.Machine

/-- Settles O13: the wait's rewind undoes the cycle's advance, and the advance does not touch the latch. -/
theorem waitForKeyRefetches : Obligations.WaitForKeyRefetches := by
  intro s x hs hw hup
  calc step s
    _ = exec (.ldVxK x) s.advance := hs.step_eq.trans (runWord_of_some s hw)
    _ = .next s.advance.rewind := execLdVxK_none s.advance x hup
    _ = .next s := congrArg _ s.rewind_advance

/-- Settles O53: a key index keeps its value when it is widened to a byte. -/
theorem waitForKeyTakesLeastKey : Obligations.WaitForKeyTakesLeastKey := by
  refine fun s x => ⟨execLdVxK_none s x, fun k hk hleast => ?_⟩
  refine ⟨_, execLdVxK_some s x (s.lowestKey_eq_some hk hleast), .setReg s x _, ?_⟩
  rw [State.getReg_setReg_self]
  exact BitVec.toNat_setWidth_of_le (by decide)

/-- Settles O51: Vx names the key, and each instruction is a skip on that key's latch. -/
theorem keySkipsTestTheLatch : Obligations.KeySkipsTestTheLatch := by
  intro s x k h
  have hk := keyIndex_of_toNat_eq h
  constructor
  · rw [exec, execSkp, hk]
    exact congrArg _ (s.skipIf_eq_ite Iff.rfl)
  · rw [exec, execSknp, hk]
    exact congrArg _ (s.skipIf_eq_ite (iff_of_eq (Bool.not_eq_true' _)))

/-- Settles O52: Vx names no key. -/
theorem keySkipsFaultPastTheLatch : Obligations.KeySkipsFaultPastTheLatch := by
  intro s x h
  have hk := keyIndex_of_gt h
  constructor
  · rw [exec, execSkp, hk]
    rfl
  · rw [exec, execSknp, hk]
    rfl

/-- Settles O54: each is one write, of Vx or of a timer. -/
theorem timerInstructionsMoveOneByte : Obligations.TimerInstructionsMoveOneByte := fun s x =>
  ⟨⟨_, rfl, .setReg s x s.DT, State.getReg_setReg_self s x s.DT⟩, rfl, rfl⟩

end Sys2Proof.Proofs

/-! PROOF. Exceptions, asynchronous events and clocks (`60_exceptions.md` R200 to R230). A clock's poll is a clock tick that
fires or waits, a timer's tick is one decrement that stops at 0, and a host's control is one write. -/

namespace Sys2Proof.Machine

variable (s : State)

/-! The fault field. -/

/-- Writing the cause that is there already changes nothing (R37). -/
theorem State.setFault_of_fault {c : Fault} (h : s.fault = some c) : s.setFault c = s := by
  rw [State.setFault, ← h]

/-- An outcome that raises leaves its cause in the host's state. -/
theorem State.settle_fault_of_raises {r : Result State} {c : Fault} (h : r = .fault c) :
    (s.settle r).fault = some c := by
  rw [h, State.settle_fault, State.setFault_fault]

/-- In FAULT an outcome that answers the latched cause leaves the host the state it had. -/
theorem State.settle_of_latched {r : Result State} {c : Fault} (hs : s.fault = some c) (h : r = .fault c) :
    s.settle r = s := by
  rw [h, State.settle_fault, s.setFault_of_fault hs]

/-! The timers and the key latch. -/

/-- A timer at 0 stays there, as a subtraction of natural numbers does (R213). -/
@[simp] theorem timerDown_toNat (v : Byte) : (timerDown v).toNat = v.toNat - 1 := by
  rw [timerDown]
  split
  next h => rw [h]; rfl
  next h => bv_omega

/-- A press or a release writes the latch of its own key alone (R226). -/
theorem State.keyDown_setKey_frame (k : Nibble) (b : Bool) :
    (s.setKey k b).keyDown k = b ∧ ∀ j, j ≠ k → (s.setKey k b).keyDown j = s.keyDown j :=
  ⟨by rw [State.keyDown_setKey, if_pos rfl], fun j hj => by rw [State.keyDown_setKey, if_neg hj]⟩

/-! The load of a program, by the length of its image (R224). -/

theorem loadProgram_fits {image : List Byte} (h : image.length ≤ 3584) :
    loadProgram image s = s.pokeBytes 0x200 image :=
  if_pos (decide_eq_true h)

theorem loadProgram_tooLarge {image : List Byte} (h : 3584 < image.length) :
    loadProgram image s = s.emit (.loadFailed (.romTooLarge image.length)) :=
  if_neg (by rw [imageFits, decide_eq_true_iff]; omega)

/-! The clocks: a frequency that is set, and a tick before and after one period (R217, R219). -/

theorem setFrequency_eq (floor : Rat) (c : Clock) (hz : Rat) :
    setFrequency floor c hz = { c with freq := max hz floor } := by
  rw [← setFrequency_freq floor c hz]
  rfl

theorem clockTick_waits {c : Clock} {now : Rat} (h : now - c.last < 1 / c.freq) :
    clockTick c (some now) = (false, c) :=
  if_neg (not_le.mpr h)

theorem clockTick_fires {c : Clock} {now : Rat} (h : 1 / c.freq ≤ now - c.last) :
    clockTick c (some now) = (true, { c with last := now }) :=
  if_pos h

/-! The polls, by the tick of their clock (R213, R220). -/

section Polls

variable {now : Option Rat} {c : Clock}

theorem pollDelay_idle (h : clockTick s.clkDt now = (false, c)) : pollDelay now s = (false, s.noteTimeRead now) := by
  rw [pollDelay, h]

theorem pollSound_idle (h : clockTick s.clkSt now = (false, c)) : pollSound now s = (false, s.noteTimeRead now) := by
  rw [pollSound, h]

theorem pollCpu_idle (h : clockTick s.clkCpu now = (false, c)) : pollCpu now s = .next (s.noteTimeRead now) := by
  rw [pollCpu, h]

theorem pollDelay_fires (h : clockTick s.clkDt now = (true, c)) :
    pollDelay now s = (decide (s.DT ≠ 0), delayTick (s.setClkDt c)) := by
  rw [pollDelay, h, decide_not]
  rfl

theorem pollSound_fires (h : clockTick s.clkSt now = (true, c)) :
    pollSound now s = (decide (s.ST ≠ 0), soundTick (s.setClkSt c)) := by
  rw [pollSound, h, decide_not]
  rfl

theorem pollCpu_fires (h : clockTick s.clkCpu now = (true, c)) :
    pollCpu now s = performEvent .instrStep (s.setClkCpu c) := by
  rw [pollCpu, h]
  rfl

end Polls

end Sys2Proof.Machine

namespace Sys2Proof.Proofs

open Sys2Proof.Machine

/-- Settles O57: the image is poked byte by byte if it fits, and its length reported if not. -/
theorem loadProgramCopiesOrRefuses : Obligations.LoadProgramCopiesOrRefuses := by
  intro s image hf
  rw [runEvent_running s hf, performEvent]
  constructor
  · intro hl
    refine ⟨_, congrArg _ (loadProgram_fits s hl), .pokeBytes s _ rfl, fun k hk => ?_⟩
    rw [State.peek_pokeBytes_add s _ hk, List.getD_eq_getElem]
  · exact fun hl => congrArg _ (loadProgram_tooLarge s hl)

/-- Settles O9: a raise is latched, and in FAULT every outcome is the latched cause. -/
theorem faultStateIsTerminal : Obligations.FaultStateIsTerminal := by
  refine ⟨fun s c e => ⟨s.settle_fault_of_raises, s.settle_fault_of_raises⟩, fun s c e hs => ?_⟩
  have hstep : step s = .fault c := step_fault hs
  have hevent : runEvent e s = .fault c := runEvent_fault s hs e
  exact ⟨hstep, s.settle_of_latched hs hstep, hevent, s.settle_of_latched hs hevent⟩

/-- Settles O55: each tick is one write of its timer. -/
theorem ticksCountDownToZero : Obligations.TicksCountDownToZero := fun s hf =>
  ⟨⟨_, runEvent_running s hf .delayTick, rfl, timerDown_toNat s.DT⟩,
    ⟨_, runEvent_running s hf .soundTick, rfl, timerDown_toNat s.ST⟩⟩

/-- Settles O56: each control is one write, of a latch or of `pc`. -/
theorem hostControlsWriteOneField : Obligations.HostControlsWriteOneField := fun s k hf =>
  ⟨⟨_, runEvent_running s hf (.press k), rfl, s.keyDown_setKey_frame k true⟩,
    ⟨_, runEvent_running s hf (.release k), rfl, s.keyDown_setKey_frame k false⟩, runEvent_running s hf .warmReset⟩

/-- Settles O58: a failed read and a time before one period leave the clock idle, a later time fires it. -/
theorem clockPollsFireAfterOnePeriod : Obligations.ClockPollsFireAfterOnePeriod := by
  refine fun s now => ⟨fun hf time => ?_, ?_, ?_, ?_, ?_, ?_, ?_, ?_⟩
  · exact ⟨runEvent_running s hf _, runEvent_running s hf _, runEvent_running s hf _⟩
  · exact ⟨pollDelay_idle s rfl, pollSound_idle s rfl, pollCpu_idle s rfl⟩
  · exact fun h => pollDelay_idle s (clockTick_waits h)
  · exact fun h => pollSound_idle s (clockTick_waits h)
  · exact fun h => pollCpu_idle s (clockTick_waits h)
  · exact fun h => pollDelay_fires s (clockTick_fires h)
  · exact fun h => pollSound_fires s (clockTick_fires h)
  · exact fun h => pollCpu_fires s (clockTick_fires h)

/-- Settles O59: each control sets the frequency, clamped, in the instruction clock. -/
theorem frequencyControlsClamp : Obligations.FrequencyControlsClamp := by
  intro s hf
  rw [runEvent_running s hf, runEvent_running s hf, performEvent, performEvent, freqUp, freqDown, setFrequency_eq,
    setFrequency_eq]
  exact ⟨rfl, rfl⟩

end Sys2Proof.Proofs

/-! PROOF. Reset and the end of a run (`70_reset_and_hazards.md` R240, R257): the state at power-on meets the invariant, and
a self-jump's InstrStep ends where it began. -/

namespace Sys2Proof.Machine

/-! The jump to an address `a`: its word, and where it leaves a machine that has advanced from `a`. -/

theorem encode_jp_toNat (nnn : Addr12) : (encode (.jp nnn)).toNat = 0x1000 + nnn.toNat := by
  have h : 0x1000 + nnn.toNat < 2 ^ 16 := by omega
  exact (BitVec.toNat_ofNat _ 16).trans (Nat.mod_eq_of_lt h)

/-- An address of 12 bits is widened again to the word it was cut from (R93). -/
theorem zextAddr_setWidth {v : Word} (h : v.toNat ≤ 0xFFF) : zextAddr (v.setWidth 12) = v :=
  Word.ext_toNat (by rw [zextAddr_toNat, BitVec.toNat_setWidth, Nat.mod_eq_of_lt (by omega)])

variable {s : State}

/-- The word of a self-jump is that of the jump to `pc`; `pc` is below 4096, so that the 12 bits hold it (R132, R257). -/
theorem State.atSelfJump.decodeWord_eq (h : s.atSelfJump) :
    decodeWord s.nextWord = some (.jp (s.pc.setWidth 12)) := by
  obtain ⟨-, hpc, hw⟩ := h
  have henc : s.nextWord = encode (.jp (s.pc.setWidth 12)) := by
    apply Word.ext_toNat
    rw [hw, encode_jp_toNat, ← zextAddr_toNat, zextAddr_setWidth (by omega)]
  rw [henc, decodeWord_encode]

end Sys2Proof.Machine

namespace Sys2Proof.Proofs

open Sys2Proof.Machine

/-- Settles O14: the jump writes to `pc` the address that the advance moved it from. -/
theorem selfJumpIsStable : Obligations.SelfJumpIsStable := by
  intro s hs hi
  have hw := hs.decodeWord_eq
  obtain ⟨hf, hpc, -⟩ := hs
  have hfetch : s.Fetches := ⟨hf, hi, by omega⟩
  calc step s
    _ = exec (.jp (s.pc.setWidth 12)) s.advance := hfetch.step_eq.trans (runWord_of_some s hw)
    _ = .next (s.advance.setPc (zextAddr (s.pc.setWidth 12))) := rfl
    _ = .next (s.advance.setPc s.pc) := by rw [zextAddr_setWidth (by omega)]
    _ = .next s := rfl

/-- Settles O16: memory and the stack list nothing, and the default parameters are in their domains, CPU_HZ at or above the
floor whatever the free frequencies are. -/
theorem resetMeetsInvariant : Obligations.ResetMeetsInvariant where
  memWf := rfl
  pcBound := by decide
  stackBound := fun _ h => absurd h List.not_mem_nil
  depthBound := fun d _ => Nat.zero_le d
  cfgWf := defaultConfig_wf
  cpuFreq := by
    obtain ⟨-, -, -, hcpu⟩ := defaultConfig_wf
    exact hcpu
  dtFreq := rfl
  stFreq := rfl

end Sys2Proof.Proofs
